-- ==== Sys2Proof/Word.lean ====
section
/-! DEFINITION. The machine's words (00_scope.md R10, R12): every value of the block is an unsigned number of a stated
width, and a byte has 8 bits. -/

namespace Sys2Proof

/-- A byte: 8 bits (R12). -/
abbrev Byte := BitVec 8

/-- A 16-bit word: the control words, the short addresses, the lengths and the cursors (R10, R20). -/
abbrev Word16 := BitVec 16

/-- A 32-bit word: the frame counter (R10, R41). -/
abbrev Word32 := BitVec 32

/-- A 64-bit word: the accumulator, the field value and the extended addresses (R10, R27, R29, R34). -/
abbrev Word64 := BitVec 64

end Sys2Proof
end

