-- ==== Sys2Proof/Config.lean ====
section
/-! DEFINITION. What is fixed when a block is built (00_scope.md R6 to R8, all OPEN), and the free values.

The parameters are numbers whose bounds the spec states, so each is held in a type that has exactly the admitted
values: no configuration outside R6, R7 and R187 can be written. A block carries its configuration
(`Machine.State.cfg`), so a statement for every state is a statement for every configuration; the block that leaves
reset carries `Config.built`, a constant with no body (log entry 1). -/

namespace Sys2Proof

/-- The four address spaces (20_memory.md R60). -/
inductive Space where
  | ib  -- input buffer
  | ob  -- output buffer
  | pl  -- payload buffer
  | rl  -- relay-list buffer
deriving DecidableEq, Repr

/-- The outcomes of the transmission classification (00_scope.md R8, 10_state.md R30). -/
inductive TxKind where
  | broadcast
  | multicast
  | unicast
  | sourceRouted
  | unknown
deriving DecidableEq, Repr, Inhabited

/-- The entries of `TXM_TABLE` that R187 leaves open: the routes Suppress (four entries) and Enable without
multicast (two). The two digits are the multicast flag and the destination-IEEE flag. -/
structure TxmTable where
  suppress00 : TxKind
  suppress01 : TxKind
  suppress10 : TxKind
  suppress11 : TxKind
  enable00 : TxKind
  enable01 : TxKind
deriving DecidableEq, Repr, Inhabited

/-- The parameters of one block (R6, R7, R8). `ibCapLessOne` and the like are one less than the parameter, whose
least value is 1. -/
structure Config where
  /-- `IB_CAP - 1`, so `1 <= IB_CAP <= 65535` (R6). -/
  ibCapLessOne : Fin 65535
  /-- `OB_CAP - 1`, so `1 <= OB_CAP <= 65535` (R6). -/
  obCapLessOne : Fin 65535
  /-- `PAYLOAD_CAP`, `0 <= PAYLOAD_CAP <= 65535` (R6). -/
  payloadCapacity : Fin 65536
  /-- `RELAY_CAP`, `0 <= RELAY_CAP <= 65535` (R6). -/
  relayCapacity : Fin 65536
  /-- `CMD_MAX - 1`, so `1 <= CMD_MAX <= 255` (R7). -/
  cmdMaxLessOne : Fin 255
  /-- The open entries of `TXM_TABLE` (R8, R187). -/
  txm : TxmTable
deriving DecidableEq, Repr, Inhabited

namespace Config

/-- `IB_CAP` (R6). -/
def ibCap (c : Config) : Nat := c.ibCapLessOne.val + 1

/-- `OB_CAP` (R6). -/
def obCap (c : Config) : Nat := c.obCapLessOne.val + 1

/-- `PAYLOAD_CAP` (R6). -/
def payloadCap (c : Config) : Nat := c.payloadCapacity.val

/-- `RELAY_CAP` (R6). -/
def relayCap (c : Config) : Nat := c.relayCapacity.val

/-- `CMD_MAX` (R7). -/
def cmdMax (c : Config) : Byte := BitVec.ofNat 8 (c.cmdMaxLessOne.val + 1)

/-- The size of a space in bytes (20_memory.md R60). -/
def cap (c : Config) : Space → Nat
  | .ib => c.ibCap
  | .ob => c.obCap
  | .pl => c.payloadCap
  | .rl => c.relayCap

/-- The configuration `REF` of R9, which leaves `TXM_TABLE` open. It is for test vectors and no part of the
hardware. -/
def ref (t : TxmTable) : Config := ⟨255, 255, 128, 32, 11, t⟩

/-- The configuration `TINY` of R9, which leaves `TXM_TABLE` open. It is for test vectors and no part of the
hardware. -/
def tiny (t : TxmTable) : Config := ⟨31, 15, 4, 4, 11, t⟩

end Config

/-- The parameters of the block that leaves reset: the values are OPEN (R6 to R8, U5, U6), so nothing says what they
are. DESIGN CHOICE, log entry 1; safe. -/
opaque Config.built : Config

/-- What a byte that nothing has written reads as, given how many times the host has reset the block, the space and
the index: any value, "the same byte on every read until overwritten" (93_implementation_defined.md U7). Log
entry 3; safe. -/
opaque Config.unwrittenByte : Nat → Space → Nat → Byte

end Sys2Proof
end

