-- ==== Sys2Proof/Syntax.lean ====
section
/-! DEFINITION. The operations of the block, one constructor per row of the opcode table (30_encoding.md R82, R105),
and the host actions of which a program consists (00_scope.md R2, 30_encoding.md R106). -/

namespace Sys2Proof

/-- The rows of the opcode table. The 35 `OP8` operations have no operand in their code (R80): they take their
operands from registers. The four `FC16` rows are the arms of `DEC.FRM`; the operand is the FrameControl word that
selects the arm, its reserved bits dropped (R100, R105; log entry 6). -/
inductive Instr where
  -- control
  | nop | clr
  -- primitive decode
  | decU8 | decU16 | decU32 | decU64 | decBuf
  -- primitive encode
  | encU8 | encU16 | encU32 | encU64 | encBuf
  -- bitfield utilities
  | bfGet8 | bfGet16 | bfTst8 | bfTst16 | bfMake8 | bfMake16
  -- NWK decode and classification
  | decFc | decMc | decSrs | decHdr | decCid | decFrm | txm
  -- NWK encode
  | encFc | encMc | encSrs | encHdr | encCid | encFrm
  -- security decode
  | decSc | decAux
  -- security encode
  | encSc | encAux
  -- wire-level dispatch rows
  | nwkData (fc : Word16)
  | nwkCmd (fc : Word16)
  | nwkRsvd (fc : Word16)
  | nwkInterPan (fc : Word16)
deriving DecidableEq, Repr

/-- The two formats of the opcode table: the 8-bit code written to `OP` (R80), and the 16-bit FrameControl word at
the start of a frame (R105). -/
inductive Format where
  | op8
  | fc16
deriving DecidableEq, Repr

/-- Why the decoder refuses a sequence of bytes. -/
inductive DecodeError where
  /-- The 8-bit code is none of R82's (R84). -/
  | unassigned (code : Byte)
  /-- There are fewer bytes than the format has. -/
  | truncated
deriving DecidableEq, Repr

/-- The two buffers that `SETBUF` names (44_control_and_host.md R227). -/
inductive ValueBuf where
  | pl
  | rl
deriving DecidableEq, Repr

/-- One action of the host (R106; 44_control_and_host.md R223 to R228; 10_state.md R21, R51). -/
inductive HostAction where
  /-- `RESET` (R223). -/
  | reset
  /-- `LOAD s` (R224). -/
  | load (s : List Byte)
  /-- `SETLEN n` (R225). -/
  | setLen (n : Word16)
  /-- `SEEK n` (R225). -/
  | seek (n : Word16)
  /-- `OCLR` (R226). -/
  | oclr
  /-- `SET reg, v` by register number (R227, R20). DESIGN CHOICE, log entry 13: a register number has 8 bits. -/
  | set (reg : Byte) (v : Word64)
  /-- `SETBUF PL, s` and `SETBUF RL, s` (R227). -/
  | setBuf (b : ValueBuf) (s : List Byte)
  /-- A write of one byte of a buffer (R51, R224). -/
  | setByte (sp : Space) (i : Nat) (v : Byte)
  /-- `OP c`: a write of the code `c` to `OP` (R21). -/
  | op (code : Byte)
  /-- `GET reg` by register number (R228). DESIGN CHOICE, log entry 13: a register number has 8 bits. -/
  | get (reg : Byte)
  /-- A read of one byte of a buffer (R228). -/
  | getByte (sp : Space) (i : Nat)
deriving DecidableEq, Repr

end Sys2Proof
end

