-- ==== Sys2Proof/WellFormed.lean ====
section
/-! DEFINITION. Which terms of `Instr` stand for a row's word. An `OP8` row has no operand and is always well formed;
the word of an `FC16` row must have the row's frame type in bits 1:0 (30_encoding.md R105) and its reserved bits
15:14 clear (R100). -/

namespace Sys2Proof

/-- Bits 1:0 of the word are the frame type `tag` (R85, R86, R105). -/
def frameTagIs (tag : Nat) (fc : Word16) : Bool := fc.toNat % 4 == tag

/-- The reserved bits 15:14 of the word are clear (R85, R100). -/
def reservedClear (fc : Word16) : Bool := fc.toNat < 0x4000

/-- The checks on an instruction's operand. -/
def Instr.wf : Instr → Bool
  | .nwkData fc => frameTagIs 0 fc && reservedClear fc
  | .nwkCmd fc => frameTagIs 1 fc && reservedClear fc
  | .nwkRsvd fc => frameTagIs 2 fc && reservedClear fc
  | .nwkInterPan fc => frameTagIs 3 fc && reservedClear fc
  | .nop | .clr
  | .decU8 | .decU16 | .decU32 | .decU64 | .decBuf
  | .encU8 | .encU16 | .encU32 | .encU64 | .encBuf
  | .bfGet8 | .bfGet16 | .bfTst8 | .bfTst16 | .bfMake8 | .bfMake16
  | .decFc | .decMc | .decSrs | .decHdr | .decCid | .decFrm | .txm
  | .encFc | .encMc | .encSrs | .encHdr | .encCid | .encFrm
  | .decSc | .decAux | .encSc | .encAux => true

end Sys2Proof
end

