-- ==== Sys2Proof/Decode.lean ====
section
/-! DEFINITION. The decoder of both formats, total on any bytes, and after it the encoder, both written from
30_encoding.md R82 and R105. The byte-order helpers of 00_scope.md R12 stand here too, since the decoder needs them
first. -/

namespace Sys2Proof

/-- `le_n(b)`: the value of a byte sequence, byte 0 least significant (00_scope.md R12, 20_memory.md R62). -/
def leNat : List Byte → Nat
  | [] => 0
  | b :: bs => b.toNat + 256 * leNat bs

/-- `bytes_n(v)`: the low `n` bytes of `v`, least significant first (R12, R62). -/
def leBytes : Nat → Nat → List Byte
  | 0, _ => []
  | n + 1, v => BitVec.ofNat 8 v :: leBytes n (v / 256)

/-- The FrameControl word without its reserved bits 15:14: "value masked with 0x3FFF" (10_state.md R31,
30_encoding.md R100). -/
def dropReservedFc (w : Word16) : Word16 := w &&& 0x3FFF#16

/-- The SecurityControl byte without its reserved bits 7:6: "value masked with 0x3F" (10_state.md R40,
30_encoding.md R100). -/
def dropReservedSc (b : Byte) : Byte := b &&& 0x3F#8

/-- The operation of an 8-bit code (R82); every other code is illegal (R84). -/
def decodeOp (c : Byte) : Except DecodeError Instr :=
  match c.toNat with
  | 0x00 => .ok .nop
  | 0x01 => .ok .clr
  | 0x10 => .ok .decU8
  | 0x11 => .ok .decU16
  | 0x12 => .ok .decU32
  | 0x13 => .ok .decU64
  | 0x14 => .ok .decBuf
  | 0x20 => .ok .encU8
  | 0x21 => .ok .encU16
  | 0x22 => .ok .encU32
  | 0x23 => .ok .encU64
  | 0x24 => .ok .encBuf
  | 0x30 => .ok .bfGet8
  | 0x31 => .ok .bfGet16
  | 0x32 => .ok .bfTst8
  | 0x33 => .ok .bfTst16
  | 0x34 => .ok .bfMake8
  | 0x35 => .ok .bfMake16
  | 0x40 => .ok .decFc
  | 0x41 => .ok .decMc
  | 0x42 => .ok .decSrs
  | 0x43 => .ok .decHdr
  | 0x44 => .ok .decCid
  | 0x45 => .ok .decFrm
  | 0x46 => .ok .txm
  | 0x50 => .ok .encFc
  | 0x51 => .ok .encMc
  | 0x52 => .ok .encSrs
  | 0x53 => .ok .encHdr
  | 0x54 => .ok .encCid
  | 0x55 => .ok .encFrm
  | 0x60 => .ok .decSc
  | 0x61 => .ok .decAux
  | 0x70 => .ok .encSc
  | 0x71 => .ok .encAux
  | _ => .error (.unassigned c)

/-- The arm row that a FrameControl word selects (R86, R105); its reserved bits are ignored (R100). -/
def decodeFrameWord (w : Word16) : Instr :=
  match w.toNat % 4 with
  | 0 => .nwkData (dropReservedFc w)
  | 1 => .nwkCmd (dropReservedFc w)
  | 2 => .nwkRsvd (dropReservedFc w)
  | _ => .nwkInterPan (dropReservedFc w)

/-- The decoder: the instruction at the front of a byte sequence, and the bytes after it. -/
def decode : Format → List Byte → Except DecodeError (Instr × List Byte)
  | .op8, c :: rest =>
    match decodeOp c with
    | .ok i => .ok (i, rest)
    | .error e => .error e
  | .fc16, b0 :: b1 :: rest => .ok (decodeFrameWord (BitVec.ofNat 16 (leNat [b0, b1])), rest)
  | _, _ => .error .truncated

/-- The format of an instruction's row (R80, R105). -/
def Instr.format : Instr → Format
  | .nwkData _ | .nwkCmd _ | .nwkRsvd _ | .nwkInterPan _ => .fc16
  | .nop | .clr
  | .decU8 | .decU16 | .decU32 | .decU64 | .decBuf
  | .encU8 | .encU16 | .encU32 | .encU64 | .encBuf
  | .bfGet8 | .bfGet16 | .bfTst8 | .bfTst16 | .bfMake8 | .bfMake16
  | .decFc | .decMc | .decSrs | .decHdr | .decCid | .decFrm | .txm
  | .encFc | .encMc | .encSrs | .encHdr | .encCid | .encFrm
  | .decSc | .decAux | .encSc | .encAux => .op8

/-- The operation code under which an instruction runs (R82). A wire row runs as an arm of `DEC.FRM` (R105), so
under its code 0x45. -/
def Instr.opCode : Instr → Byte
  | .nop => 0x00#8
  | .clr => 0x01#8
  | .decU8 => 0x10#8
  | .decU16 => 0x11#8
  | .decU32 => 0x12#8
  | .decU64 => 0x13#8
  | .decBuf => 0x14#8
  | .encU8 => 0x20#8
  | .encU16 => 0x21#8
  | .encU32 => 0x22#8
  | .encU64 => 0x23#8
  | .encBuf => 0x24#8
  | .bfGet8 => 0x30#8
  | .bfGet16 => 0x31#8
  | .bfTst8 => 0x32#8
  | .bfTst16 => 0x33#8
  | .bfMake8 => 0x34#8
  | .bfMake16 => 0x35#8
  | .decFc => 0x40#8
  | .decMc => 0x41#8
  | .decSrs => 0x42#8
  | .decHdr => 0x43#8
  | .decCid => 0x44#8
  | .decFrm => 0x45#8
  | .txm => 0x46#8
  | .encFc => 0x50#8
  | .encMc => 0x51#8
  | .encSrs => 0x52#8
  | .encHdr => 0x53#8
  | .encCid => 0x54#8
  | .encFrm => 0x55#8
  | .decSc => 0x60#8
  | .decAux => 0x61#8
  | .encSc => 0x70#8
  | .encAux => 0x71#8
  | .nwkData _ | .nwkCmd _ | .nwkRsvd _ | .nwkInterPan _ => 0x45#8

/-- The encoder: the bytes of an instruction (R82, R105). -/
def encode (i : Instr) : List Byte :=
  match i with
  | .nwkData fc | .nwkCmd fc | .nwkRsvd fc | .nwkInterPan fc => leBytes 2 fc.toNat
  | .nop | .clr
  | .decU8 | .decU16 | .decU32 | .decU64 | .decBuf
  | .encU8 | .encU16 | .encU32 | .encU64 | .encBuf
  | .bfGet8 | .bfGet16 | .bfTst8 | .bfTst16 | .bfMake8 | .bfMake16
  | .decFc | .decMc | .decSrs | .decHdr | .decCid | .decFrm | .txm
  | .encFc | .encMc | .encSrs | .encHdr | .encCid | .encFrm
  | .decSc | .decAux | .encSc | .encAux => [i.opCode]

/-- The format of a table row from the number of bits the table gives it: one byte for `OP8`, two for `FC16`
(log entry 7). -/
def formatOfBits (nbits : Nat) : Format := if nbits ≤ 8 then .op8 else .fc16

/-- How many bytes a format has. -/
def formatBytes : Format → Nat
  | .op8 => 1
  | .fc16 => 2

/-- The instruction the decoder reads from the word `w` of a table row of `nbits` bits, stored lowest byte first. -/
def decodeTableWord (nbits w : Nat) : Option Instr :=
  match decode (formatOfBits nbits) (leBytes (formatBytes (formatOfBits nbits)) w) with
  | .ok (i, _) => some i
  | .error _ => none

end Sys2Proof
end

