-- ==== Sys2Proof/Machine/State.lean ====
section
/-! DEFINITION. The state of one block: every register and buffer of 10_state.md R20, and three fields of the model's
own (`cfg`, `pending`, `epoch`); the reasons a step could stop; and the state after reset (R52). -/

namespace Sys2Proof.Machine

/-- `STATUS.STATE` (10_state.md R22). The code 3 is "never produced", so it has no constructor. -/
inductive Phase where
  | idle    -- 0: nothing run since reset or CLR
  | done    -- 1: the last accepted operation completed
  | failed  -- 2: the last accepted operation failed
deriving DecidableEq, Repr

/-- `STATUS.ERR` (60_exceptions.md R230). `malformedTag` is kept, as R233 allows, and never raised. The codes 6 and
7 are "never produced". -/
inductive ErrCode where
  | noError            -- 0
  | insufficientBytes  -- 1
  | capacityExceeded   -- 2
  | malformedTag       -- 3
  | illegalOp          -- 4
  | badField           -- 5
deriving DecidableEq, Repr

/-- One address space: the bytes that have been written, as (index, byte) with strictly rising indices. An index
that is not listed holds no value (R52: "a model treats each such byte as holding no value"), so no entry can equal
what an unlisted index holds. -/
abbrev Memory := List Host.Cell

/-- The state of the block. -/
structure State where
  /-- The model's own: the parameters the block is built with (00_scope.md R6 to R8). No step changes it (R261). -/
  cfg : Config
  /-- The model's own: the host's actions still to come, the next one first (00_scope.md R2, R106). -/
  pending : List HostAction
  /-- The model's own: how many times the host has reset the block; it selects the free bytes (R260, U7). -/
  epoch : Nat
  /-- `STATUS.STATE` (R22). -/
  phase : Phase
  /-- `STATUS.ERR` (R22, R230). -/
  err : ErrCode
  /-- `STATUS.LOP` (R22). -/
  lop : Byte
  /-- `EPOS` (R23). -/
  epos : Word16
  /-- `LEN` (R24). -/
  len : Word16
  /-- `CUR`, the input cursor and program counter (R25). -/
  cur : Word16
  /-- `OLEN` (R26). -/
  olen : Word16
  /-- `ACC` (R27). -/
  acc : Word64
  /-- `FOFF` (R28). -/
  foff : Byte
  /-- `FWID` (R28). -/
  fwid : Byte
  /-- `FVAL` (R29). -/
  fval : Word64
  /-- `TXR` (R30); the codes 5 to 7 are "never produced". -/
  txr : TxKind
  /-- `FC`, bits 15:14 hardwired to 0 (R31). -/
  fc : Word16
  /-- `DST` (R32). -/
  dst : Word16
  /-- `SRC` (R32). -/
  src : Word16
  /-- `RADIUS` (R33). -/
  radius : Byte
  /-- `SEQ` (R33). -/
  seq : Byte
  /-- `DIEEE` (R34). -/
  dieee : Word64
  /-- `SIEEE` (R34). -/
  sieee : Word64
  /-- `MC` (R35). -/
  mc : Byte
  /-- `RCNT` (R36). -/
  rcnt : Byte
  /-- `RIDX` (R36). -/
  ridx : Byte
  /-- `RLEN` (R37). -/
  rlen : Word16
  /-- `CID` (R38). -/
  cid : Byte
  /-- `PLEN` (R39). -/
  plen : Word16
  /-- `SCR`, bits 7:6 hardwired to 0 (R40). -/
  scr : Byte
  /-- `FCNT` (R41). -/
  fcnt : Word32
  /-- `ASRC` (R42). -/
  asrc : Word64
  /-- `KSEQ` (R43). -/
  kseq : Byte
  /-- `IB`, the input buffer (R44). -/
  ib : Memory
  /-- `OB`, the output buffer (R45). -/
  ob : Memory
  /-- `PL`, the payload buffer (R39). -/
  pl : Memory
  /-- `RL`, the relay-list buffer (R37). -/
  rl : Memory
deriving DecidableEq, Repr

/-- Why the machine could stop: never. The spec gives every operation, every illegal code and every host action an
effect (60_exceptions.md R242, "Never fatal"), so there is no constructor (log entry 10). -/
inductive Fault where
deriving DecidableEq, Repr

/-- Why a step could have no meaning. -/
inductive Refusal where
  /-- Raised only by an arm of `exec` whose instruction has no meaning yet; no arm does. Safe. -/
  | notModelled (mnemonic : String)
deriving DecidableEq, Repr

/-- The block right after reset (10_state.md R52, 70_reset_and_hazards.md R260): every register 0 except `TXR`, which
is 4 (Unknown), and no byte of any buffer holding a value. The parameters are those the block was built with, the
host has no action pending and has not reset the block before (log entries 1, 2 and 4). -/
def State.reset : State where
  cfg := Config.built
  pending := []
  epoch := 0
  phase := .idle
  err := .noError
  lop := 0
  epos := 0
  len := 0
  cur := 0
  olen := 0
  acc := 0
  foff := 0
  fwid := 0
  fval := 0
  txr := .unknown
  fc := 0
  dst := 0
  src := 0
  radius := 0
  seq := 0
  dieee := 0
  sieee := 0
  mc := 0
  rcnt := 0
  ridx := 0
  rlen := 0
  cid := 0
  plen := 0
  scr := 0
  fcnt := 0
  asrc := 0
  kseq := 0
  ib := []
  ob := []
  pl := []
  rl := []

end Sys2Proof.Machine
end

