-- ==== Sys2Proof/Machine/Ops.lean ====
section
/-! DEFINITION. The named operations over buffers and registers: reading and writing bytes (20_memory.md), the
primitives `Take`, `TakeRest`, `Put` and `PutSeq` of 00_scope.md R13, the writes to registers with hardwired bits,
and the operation cycle of 10_state.md R21 with failure entry (60_exceptions.md R236) and the return from it
(R221, R240). -/

namespace Sys2Proof.Machine

/-! ### One address space -/

/-- The byte at an index, none where nothing has been written. -/
def Memory.get? : Memory → Nat → Option Byte
  | [], _ => none
  | (a, b) :: m, x => if a = x then some b else Memory.get? m x

/-- A write of one byte. -/
def Memory.set : Memory → Nat → Byte → Memory
  | [], x, v => [(x, v)]
  | (a, b) :: m, x, v =>
    if x < a then (x, v) :: (a, b) :: m
    else if x = a then (x, v) :: m
    else (a, b) :: Memory.set m x v

/-- A write of a byte sequence from an index upward. -/
def Memory.setSeq : Memory → Nat → List Byte → Memory
  | m, _, [] => m
  | m, x, b :: bs => Memory.setSeq (Memory.set m x b) (x + 1) bs

/-- The canonical form: strictly rising indices. An unlisted index holds no value, which no entry can equal. -/
def Memory.wf (m : Memory) : Bool := decide (m.Pairwise (fun p q => p.1 < q.1))

/-- Every listed index lies inside a space of `cap` bytes (20_memory.md R60). -/
def Memory.within (m : Memory) (cap : Nat) : Bool := m.all (fun p => p.1 < cap)

/-! ### Reading a buffer -/

/-- The cells of a space. -/
def State.mem (s : State) : Space → Memory
  | .ib => s.ib
  | .ob => s.ob
  | .pl => s.pl
  | .rl => s.rl

/-- The value of a byte of a buffer; of one that nothing has written, the free value of U7 (log entry 3). -/
def State.readByte (s : State) (sp : Space) (i : Nat) : Byte :=
  match Memory.get? (s.mem sp) i with
  | some b => b
  | none => Config.unwrittenByte s.epoch sp i

/-- The bytes `i .. i+n-1` of a buffer. -/
def State.readBytes (s : State) (sp : Space) : Nat → Nat → List Byte
  | _, 0 => []
  | i, n + 1 => s.readByte sp i :: s.readBytes sp (i + 1) n

/-! ### Writing registers that have hardwired bits, and the value buffers -/

/-- A write to `FC`: bits 15:14 are dropped (10_state.md R31). -/
def State.setFc (s : State) (w : Word16) : State := { s with fc := dropReservedFc w }

/-- A write to `SCR`: bits 7:6 are dropped (R40). -/
def State.setScr (s : State) (b : Byte) : State := { s with scr := dropReservedSc b }

/-- `PL[i] <- p[i]` for `i < |p|`; `PLEN <- |p|` (R39, 40_codec_primitives.md R124). -/
def State.setPayload (s : State) (p : List Byte) : State :=
  { s with pl := Memory.setSeq s.pl 0 p, plen := BitVec.ofNat 16 p.length }

/-- `RL[i] <- r[i]` for `i < |r|`; `RLEN <- |r|` (R37, 42_nwk_frame.md R170). -/
def State.setRelay (s : State) (r : List Byte) : State :=
  { s with rl := Memory.setSeq s.rl 0 r, rlen := BitVec.ofNat 16 r.length }

/-- `PL[0 .. PLEN-1]` (R39). -/
def State.payload (s : State) : List Byte := s.readBytes .pl 0 s.plen.toNat

/-- `RL[0 .. RLEN-1]` (R37). -/
def State.relay (s : State) : List Byte := s.readBytes .rl 0 s.rlen.toNat

/-- `OB[0 .. OLEN-1]` (R45). -/
def State.output (s : State) : List Byte := s.readBytes .ob 0 s.olen.toNat

/-! ### The primitives of 00_scope.md R13 -/

/-- `raise E(pos)` (R13). -/
structure Failure where
  err : ErrCode
  pos : Nat
deriving DecidableEq, Repr

/-- `Take(n)`: the little-endian value of the next `n` bytes of the scope. A cursor past `LEN` leaves no byte (log
entry 9). -/
def State.take (n : Nat) (s : State) : Except Failure (Nat × State) :=
  if s.len.toNat - s.cur.toNat < n then
    .error ⟨.insufficientBytes, s.cur.toNat⟩
  else
    .ok (leNat (s.readBytes .ib s.cur.toNat n), { s with cur := BitVec.ofNat 16 (s.cur.toNat + n) })

/-- "`if flag then Take(n) else 0`" (42_nwk_frame.md R172, 43_security_aux.md R210). -/
def State.takeIf (present : Bool) (n : Nat) (s : State) : Except Failure (Nat × State) :=
  if present then s.take n else .ok (0, s)

/-- `TakeRest(cap)`: every remaining byte of the scope. -/
def State.takeRest (cap : Nat) (s : State) : Except Failure (List Byte × State) :=
  if s.len.toNat - s.cur.toNat > cap then
    .error ⟨.capacityExceeded, s.cur.toNat⟩
  else
    .ok (s.readBytes .ib s.cur.toNat (s.len.toNat - s.cur.toNat), { s with cur := s.len })

/-- `PutSeq(b)`: append a byte sequence to the output. -/
def State.putSeq (b : List Byte) (s : State) : Except Failure State :=
  if s.olen.toNat + b.length > s.cfg.obCap then
    .error ⟨.capacityExceeded, s.olen.toNat⟩
  else
    .ok { s with ob := Memory.setSeq s.ob s.olen.toNat b, olen := BitVec.ofNat 16 (s.olen.toNat + b.length) }

/-- `Put(n, v)`: append the low `n` bytes of a value, least significant first. -/
def State.put (n v : Nat) (s : State) : Except Failure State := s.putSeq (leBytes n v)

/-- "`if flag then Put(n, v)`" (42_nwk_frame.md R173, 43_security_aux.md R211). -/
def State.putIf (present : Bool) (n v : Nat) (s : State) : Except Failure State :=
  if present then s.put n v else .ok s

/-! ### The operation cycle -/

/-- Failure entry (60_exceptions.md R236): from the state before the operation, only the four status fields change.
There is no handler address, no saved context and no mode. -/
def State.fail (s : State) (f : Failure) (code : Byte) : State :=
  { s with phase := .failed, err := f.err, epos := BitVec.ofNat 16 f.pos, lop := code }

/-- Completion of an operation (10_state.md R21). -/
def State.complete (s : State) (code : Byte) : State := { s with phase := .done, lop := code }

/-- The return from a failure, `CLR` (44_control_and_host.md R221, 60_exceptions.md R240): there is no return
address and nothing is restored. -/
def State.clearFailure (s : State) : State :=
  { s with phase := .idle, err := .noError, epos := 0, lop := 0x01#8 }

/-- One operation with pseudocode (R21): ignored while `Failed` (60_exceptions.md R239); else its writes are
committed if it runs to its end, and discarded if it raises. -/
def runOp (code : Byte) (body : State → Except Failure State) (s : State) : Host.Outcome State Fault Refusal :=
  .next <|
    if s.phase = .failed then s
    else
      match body s with
      | .ok t => t.complete code
      | .error f => s.fail f code

/-- A code that R82 does not assign (R21, 44_control_and_host.md R222): `IllegalOp(0)`, or ignored while `Failed`. -/
def State.rejectCode (s : State) (code : Byte) : State :=
  if s.phase = .failed then s else s.fail ⟨.illegalOp, 0⟩ code

/-- The decoder reads the code that the host writes to `OP` (R21, R80). -/
def fetchOperation (code : Byte) : Except DecodeError Instr :=
  match decode .op8 [code] with
  | .ok (i, _) => .ok i
  | .error e => .error e

end Sys2Proof.Machine
end

