-- ==== Sys2Proof/Machine/Operands.lean ====
section
/-! DEFINITION. The operand forms of the block: bit slices and fields of a word (00_scope.md R11, 41_bitfield.md R140
to R145), the named fields of the three control words (30_encoding.md R102), their enumerated views (41_bitfield.md
R153 to R155, 42_nwk_frame.md R176), the relay list as addresses (30_encoding.md R93) and the classification table
(00_scope.md R8, 42_nwk_frame.md R187). -/

namespace Sys2Proof.Machine

/-! ### Bits and fields -/

/-- The closed slice `v[hi:lo]`: `(v >> lo) mod 2^(hi-lo+1)` (R11). -/
def slice (v hi lo : Nat) : Nat := v / 2 ^ lo % 2 ^ (hi - lo + 1)

/-- `get_field`: the field of `width` bits from bit `offset`, shifted right (R140, R141). -/
def getField (word offset width : Nat) : Nat := (word >>> offset) % 2 ^ width

/-- The low `w` bits of `ACC`, the word operand of the bitfield utilities (10_state.md R27). -/
def State.accWord (s : State) (w : Nat) : Nat := s.acc.toNat % 2 ^ w

/-! ### Enumerated values -/

/-- The frame type tag (R86). -/
inductive FrameType where
  | data | nwkCommand | reserved | interPan
deriving DecidableEq, Repr

/-- The discover-route tag (R87). -/
inductive DiscoverRoute where
  | suppress | enable | reserved
deriving DecidableEq, Repr

/-- The multicast mode tag (R91). -/
inductive McMode where
  | nonMember | member | reserved
deriving DecidableEq, Repr

/-- The key identifier tag (R98). -/
inductive KeyIdentifier where
  | data | network | keyTransport | keyLoad
deriving DecidableEq, Repr

/-- The class of a command identifier (R176). -/
inductive CmdClass where
  | known | reserved
deriving DecidableEq, Repr

/-! ### Views of `FC` (R153) -/

/-- `frame_type(FC)`. -/
def frameType (fc : Word16) : FrameType :=
  match slice fc.toNat 1 0 with
  | 0 => .data
  | 1 => .nwkCommand
  | 2 => .reserved
  | _ => .interPan

/-- `protocol_version(FC)`. -/
def protocolVersion (fc : Word16) : Nat := slice fc.toNat 5 2

/-- `discover_route(FC)`; the values without a meaning of their own fall back to `Reserved` (R101). -/
def discoverRoute (fc : Word16) : DiscoverRoute :=
  match slice fc.toNat 7 6 with
  | 0 => .suppress
  | 1 => .enable
  | _ => .reserved

/-- `multicast(FC)`. -/
def multicast (fc : Word16) : Bool := fc.getLsbD 8

/-- `security(FC)`, which gates nothing (42_nwk_frame.md R193). -/
def security (fc : Word16) : Bool := fc.getLsbD 9

/-- `source_route(FC)`. -/
def sourceRoute (fc : Word16) : Bool := fc.getLsbD 10

/-- `dest_ieee(FC)`. -/
def destIeee (fc : Word16) : Bool := fc.getLsbD 11

/-- `src_ieee(FC)`. -/
def srcIeee (fc : Word16) : Bool := fc.getLsbD 12

/-- `end_device_initiator(FC)`, which gates nothing (30_encoding.md R85). -/
def endDeviceInitiator (fc : Word16) : Bool := fc.getLsbD 13

/-! ### Views of `MC` (R154) -/

/-- `mc_mode(MC)`. -/
def mcMode (mc : Byte) : McMode :=
  match slice mc.toNat 7 6 with
  | 0 => .nonMember
  | 1 => .member
  | _ => .reserved

/-- `non_member_radius(MC)`. -/
def nonMemberRadius (mc : Byte) : Nat := slice mc.toNat 5 3

/-- `max_member_radius(MC)`. -/
def maxMemberRadius (mc : Byte) : Nat := slice mc.toNat 2 0

/-! ### Views of `SCR` (R155) -/

/-- `security_level(SCR)`: all eight values defined (R97). -/
def securityLevel (scr : Byte) : Nat := slice scr.toNat 2 0

/-- `key_identifier(SCR)`. -/
def keyIdentifier (scr : Byte) : KeyIdentifier :=
  match slice scr.toNat 4 3 with
  | 0 => .data
  | 1 => .network
  | 2 => .keyTransport
  | _ => .keyLoad

/-- `extended_nonce(SCR)`. -/
def extendedNonce (scr : Byte) : Bool := scr.getLsbD 5

/-! ### The command identifier, the relay list, the classification table -/

/-- `cmd_class(CID)` (42_nwk_frame.md R176). -/
def cmdClass (c : Config) (cid : Byte) : CmdClass :=
  if 1 ≤ cid.toNat ∧ cid.toNat ≤ c.cmdMax.toNat then .known else .reserved

/-- Relay address `i`: `RL[2i] + 256 * RL[2i+1]`, for `i < floor(RLEN / 2)` (30_encoding.md R93). -/
def State.relayAddress (s : State) (i : Nat) : Option Word16 :=
  if i < s.rlen.toNat / 2 then
    some (BitVec.ofNat 16 ((s.readByte .rl (2 * i)).toNat + 256 * (s.readByte .rl (2 * i + 1)).toNat))
  else none

/-- `TXM_TABLE` (R8) with the constraints (a) and (b) of R187; the six open entries are the configuration's. -/
def txmTable (c : Config) : DiscoverRoute → Bool → Bool → TxKind
  | .suppress, false, false => c.txm.suppress00
  | .suppress, false, true => c.txm.suppress01
  | .suppress, true, false => c.txm.suppress10
  | .suppress, true, true => c.txm.suppress11
  | .enable, false, false => c.txm.enable00
  | .enable, false, true => c.txm.enable01
  | .enable, true, _ => .unknown
  | .reserved, _, _ => .unknown

/-! ### The named-field table (30_encoding.md R102) -/

/-- The named fields of the three control words. -/
inductive NamedField where
  | frameType | protocolVersion | discoverRoute | multicast | security | sourceRoute | destIeee | srcIeee
  | endDeviceInitiator
  | maxMemberRadius | nonMemberRadius | mcMode
  | securityLevel | keyIdentifier | extendedNonce
deriving DecidableEq, Repr

/-- The width of the word a field belongs to: 16 bits for FrameControl, 8 for the two others (R102). -/
def fieldWordBits : NamedField → Nat
  | .frameType | .protocolVersion | .discoverRoute | .multicast | .security | .sourceRoute | .destIeee | .srcIeee
  | .endDeviceInitiator => 16
  | .maxMemberRadius | .nonMemberRadius | .mcMode | .securityLevel | .keyIdentifier | .extendedNonce => 8

/-- A field's offset (R102). -/
def fieldOffset : NamedField → Nat
  | .frameType => 0
  | .protocolVersion => 2
  | .discoverRoute => 6
  | .multicast => 8
  | .security => 9
  | .sourceRoute => 10
  | .destIeee => 11
  | .srcIeee => 12
  | .endDeviceInitiator => 13
  | .maxMemberRadius => 0
  | .nonMemberRadius => 3
  | .mcMode => 6
  | .securityLevel => 0
  | .keyIdentifier => 3
  | .extendedNonce => 5

/-- A field's width (R102). -/
def fieldWidth : NamedField → Nat
  | .frameType => 2
  | .protocolVersion => 4
  | .discoverRoute => 2
  | .multicast | .security | .sourceRoute | .destIeee | .srcIeee | .endDeviceInitiator => 1
  | .maxMemberRadius => 3
  | .nonMemberRadius => 3
  | .mcMode => 2
  | .securityLevel => 3
  | .keyIdentifier => 2
  | .extendedNonce => 1

/-- The value of a named field of a word, `word[offset+width-1 : offset]` (30_encoding.md R103). -/
def fieldNumber (f : NamedField) (word : Word16) : Nat :=
  slice word.toNat (fieldOffset f + fieldWidth f - 1) (fieldOffset f)

end Sys2Proof.Machine
end

