-- ==== Sys2Proof/Machine/Flags.lean ====
section
/-! DEFINITION. The status word and its codes (10_state.md R22, 60_exceptions.md R230), the code of a transmission
kind (R30), and the presence predicates that gate the optional fields (R46). The block has no condition flags. -/

namespace Sys2Proof.Machine

/-- The code of `STATUS.STATE` (R22). -/
def Phase.code : Phase → Nat
  | .idle => 0
  | .done => 1
  | .failed => 2

/-- The code of `STATUS.ERR` (R230). -/
def ErrCode.code : ErrCode → Nat
  | .noError => 0
  | .insufficientBytes => 1
  | .capacityExceeded => 2
  | .malformedTag => 3
  | .illegalOp => 4
  | .badField => 5

/-- The code of `TXR` (R30, 42_nwk_frame.md R187). -/
def txCode : TxKind → Nat
  | .broadcast => 0
  | .multicast => 1
  | .unicast => 2
  | .sourceRouted => 3
  | .unknown => 4

/-- `STATUS` as the host reads it: `STATE` in bits 1:0, `ERR` in bits 4:2, bits 7:5 zero, `LOP` in bits 15:8
(R22). -/
def State.status (s : State) : Word16 :=
  BitVec.ofNat 16 (s.phase.code + 4 * s.err.code + 256 * s.lop.toNat)

/-! ### Presence (R46) -/

/-- `has_dieee`: `FC[11] == 1`. -/
def hasDieee (fc : Word16) : Bool := fc.getLsbD 11

/-- `has_sieee`: `FC[12] == 1`. -/
def hasSieee (fc : Word16) : Bool := fc.getLsbD 12

/-- `has_mc`: `FC[8] == 1`. -/
def hasMc (fc : Word16) : Bool := fc.getLsbD 8

/-- `has_srs`: `FC[10] == 1`. -/
def hasSrs (fc : Word16) : Bool := fc.getLsbD 10

/-- `has_asrc`: `SCR[5] == 1`. -/
def hasAsrc (scr : Byte) : Bool := scr.getLsbD 5

/-- `has_kseq`: `SCR[4:3] == 1`, the key identifier Network. -/
def hasKseq (scr : Byte) : Bool := slice scr.toNat 4 3 == 1

end Sys2Proof.Machine
end

