-- ==== Sys2Proof/Machine/Bitfield.lean ====
section
/-! DEFINITION. The generic bitfield utilities (41_bitfield.md R140 to R145) on a word of `w` bits, `w` being 8 or
16. -/

namespace Sys2Proof.Machine

/-- `raise BadField(0)` (60_exceptions.md R235). -/
def badField : Failure := ⟨.badField, 0⟩

/-- `get_field` (R140, R141). -/
def bitfieldGet (w : Nat) (s : State) : Except Failure State :=
  if s.foff.toNat + s.fwid.toNat > w then .error badField
  else .ok { s with fval := BitVec.ofNat 64 (getField (s.accWord w) s.foff.toNat s.fwid.toNat) }

/-- `is_set` (R142, R143); `FWID` is ignored. -/
def bitfieldTest (w : Nat) (s : State) : Except Failure State :=
  if s.foff.toNat ≥ w then .error badField
  else .ok { s with fval := BitVec.ofNat 64 (s.acc.getLsbD s.foff.toNat).toNat }

/-- Construction of a word from a flag set and one payload field (R144, R145): the field lies in the word, the value
fits it, and no flag overlaps it. -/
def bitfieldMake (w : Nat) (s : State) : Except Failure State :=
  if s.foff.toNat + s.fwid.toNat > w then .error badField
  else if s.fval.toNat ≥ 2 ^ s.fwid.toNat then .error badField
  else if getField (s.accWord w) s.foff.toNat s.fwid.toNat ≠ 0 then .error badField
  else .ok { s with acc := BitVec.ofNat 64 (s.accWord w ||| (s.fval.toNat <<< s.foff.toNat)) }

/-- `BF.GET8` (R140). -/
def execBfGet8 (s : State) : Host.Outcome State Fault Refusal := runOp 0x30#8 (bitfieldGet 8) s

/-- `BF.GET16` (R141). -/
def execBfGet16 (s : State) : Host.Outcome State Fault Refusal := runOp 0x31#8 (bitfieldGet 16) s

/-- `BF.TST8` (R142). -/
def execBfTst8 (s : State) : Host.Outcome State Fault Refusal := runOp 0x32#8 (bitfieldTest 8) s

/-- `BF.TST16` (R143). -/
def execBfTst16 (s : State) : Host.Outcome State Fault Refusal := runOp 0x33#8 (bitfieldTest 16) s

/-- `BF.MAKE8` (R144). -/
def execBfMake8 (s : State) : Host.Outcome State Fault Refusal := runOp 0x34#8 (bitfieldMake 8) s

/-- `BF.MAKE16` (R145). -/
def execBfMake16 (s : State) : Host.Outcome State Fault Refusal := runOp 0x35#8 (bitfieldMake 16) s

end Sys2Proof.Machine
end

