-- ==== Sys2Proof/Machine/Codec.lean ====
section
/-! DEFINITION. The primitive decode and encode operations (40_codec_primitives.md R120 to R129). -/

namespace Sys2Proof.Machine

/-- `ACC <- zext_64(Take(n))` (R120 to R123). -/
def decodeAcc (n : Nat) (s : State) : Except Failure State := do
  let (v, t) ← s.take n
  .ok { t with acc := BitVec.ofNat 64 v }

/-- `Put(n, ACC[8n-1:0])` (R125 to R128). -/
def encodeAcc (n : Nat) (s : State) : Except Failure State := s.put n s.acc.toNat

/-- `s = TakeRest(PAYLOAD_CAP); PL[i] <- s[i]; PLEN <- |s|` (R124). -/
def decodePayload (s : State) : Except Failure State := do
  let (p, t) ← s.takeRest s.cfg.payloadCap
  .ok (t.setPayload p)

/-- `PutSeq(PL[0 .. PLEN-1])` (R129): no length stands before the bytes. -/
def encodePayload (s : State) : Except Failure State := s.putSeq s.payload

/-- `DEC.U8` (R120). -/
def execDecU8 (s : State) : Host.Outcome State Fault Refusal := runOp 0x10#8 (decodeAcc 1) s

/-- `DEC.U16` (R121). -/
def execDecU16 (s : State) : Host.Outcome State Fault Refusal := runOp 0x11#8 (decodeAcc 2) s

/-- `DEC.U32` (R122). -/
def execDecU32 (s : State) : Host.Outcome State Fault Refusal := runOp 0x12#8 (decodeAcc 4) s

/-- `DEC.U64` (R123). -/
def execDecU64 (s : State) : Host.Outcome State Fault Refusal := runOp 0x13#8 (decodeAcc 8) s

/-- `DEC.BUF` (R124). -/
def execDecBuf (s : State) : Host.Outcome State Fault Refusal := runOp 0x14#8 decodePayload s

/-- `ENC.U8` (R125). -/
def execEncU8 (s : State) : Host.Outcome State Fault Refusal := runOp 0x20#8 (encodeAcc 1) s

/-- `ENC.U16` (R126). -/
def execEncU16 (s : State) : Host.Outcome State Fault Refusal := runOp 0x21#8 (encodeAcc 2) s

/-- `ENC.U32` (R127). -/
def execEncU32 (s : State) : Host.Outcome State Fault Refusal := runOp 0x22#8 (encodeAcc 4) s

/-- `ENC.U64` (R128). -/
def execEncU64 (s : State) : Host.Outcome State Fault Refusal := runOp 0x23#8 (encodeAcc 8) s

/-- `ENC.BUF` (R129). -/
def execEncBuf (s : State) : Host.Outcome State Fault Refusal := runOp 0x24#8 encodePayload s

end Sys2Proof.Machine
end

