-- ==== Sys2Proof/Machine/Control.lean ====
section
/-! DEFINITION. The control operations (44_control_and_host.md R220, R221). -/

namespace Sys2Proof.Machine

/-- `NOP` (R220): changes nothing, in every state. -/
def execNop (s : State) : Host.Outcome State Fault Refusal := .next s

/-- `CLR` (R221): accepted in every state; `STATE <- Idle; ERR <- 0; EPOS <- 0; LOP <- 0x01`. -/
def execClr (s : State) : Host.Outcome State Fault Refusal := .next s.clearFailure

end Sys2Proof.Machine
end

