-- ==== Sys2Proof/Machine/ControlWords.lean ====
section
/-! DEFINITION. Decode and encode of the three control words (41_bitfield.md R147 to R152). -/

namespace Sys2Proof.Machine

/-- `w = Take(2); FC <- w[13:0]` (R147): the reserved bits are dropped. -/
def decodeFc (s : State) : Except Failure State := do
  let (w, t) ← s.take 2
  .ok (t.setFc (BitVec.ofNat 16 w))

/-- `Put(2, FC)` (R148). -/
def encodeFc (s : State) : Except Failure State := s.put 2 s.fc.toNat

/-- `MC <- Take(1)` (R149). -/
def decodeMc (s : State) : Except Failure State := do
  let (b, t) ← s.take 1
  .ok { t with mc := BitVec.ofNat 8 b }

/-- `Put(1, MC)` (R150). -/
def encodeMc (s : State) : Except Failure State := s.put 1 s.mc.toNat

/-- `b = Take(1); SCR <- b[5:0]` (R151): the reserved bits are dropped. -/
def decodeSc (s : State) : Except Failure State := do
  let (b, t) ← s.take 1
  .ok (t.setScr (BitVec.ofNat 8 b))

/-- `Put(1, SCR)` (R152). -/
def encodeSc (s : State) : Except Failure State := s.put 1 s.scr.toNat

/-- `DEC.FC` (R147). -/
def execDecFc (s : State) : Host.Outcome State Fault Refusal := runOp 0x40#8 decodeFc s

/-- `ENC.FC` (R148). -/
def execEncFc (s : State) : Host.Outcome State Fault Refusal := runOp 0x50#8 encodeFc s

/-- `DEC.MC` (R149). -/
def execDecMc (s : State) : Host.Outcome State Fault Refusal := runOp 0x41#8 decodeMc s

/-- `ENC.MC` (R150). -/
def execEncMc (s : State) : Host.Outcome State Fault Refusal := runOp 0x51#8 encodeMc s

/-- `DEC.SC` (R151). -/
def execDecSc (s : State) : Host.Outcome State Fault Refusal := runOp 0x60#8 decodeSc s

/-- `ENC.SC` (R152). -/
def execEncSc (s : State) : Host.Outcome State Fault Refusal := runOp 0x70#8 encodeSc s

end Sys2Proof.Machine
end

