-- ==== Sys2Proof/Machine/NwkFrame.lean ====
section
/-! DEFINITION. The NWK frame model (42_nwk_frame.md): source-route subframe, header, command identifier, whole
frames with their four arms, the four wire rows, and the classification. -/

namespace Sys2Proof.Machine

/-! ### Source-route subframe -/

/-- The fields of a source-route subframe (30_encoding.md R92). -/
structure Subframe where
  count : Byte
  index : Byte
  relay : List Byte
deriving DecidableEq, Repr

/-- "`c = 0; i = 0; rl = empty`": the subframe of a header whose flag is clear (R172). -/
def Subframe.absent : Subframe := ⟨0, 0, []⟩

/-- Relay count, relay index, then every remaining byte (R170). -/
def State.takeSubframe (s : State) : Except Failure (Subframe × State) := do
  let (c, t) ← s.take 1
  let (i, u) ← t.take 1
  let (rl, v) ← u.takeRest u.cfg.relayCap
  .ok (⟨BitVec.ofNat 8 c, BitVec.ofNat 8 i, rl⟩, v)

/-- The writes of a decoded subframe: `RCNT`, `RIDX`, `RL[k]`, `RLEN` (R170). -/
def State.commitSubframe (s : State) (f : Subframe) : State :=
  { s with rcnt := f.count, ridx := f.index }.setRelay f.relay

/-- `Put(1, RCNT); Put(1, RIDX); PutSeq(RL[0 .. RLEN-1])` (R171). -/
def State.putSubframe (s : State) : Except Failure State := do
  let t ← s.put 1 s.rcnt.toNat
  let u ← t.put 1 s.ridx.toNat
  u.putSeq s.relay

/-- The subframe decode with its writes (R170). -/
def decodeSubframe (s : State) : Except Failure State := do
  let (f, t) ← s.takeSubframe
  .ok (t.commitSubframe f)

/-- `DEC.SRS` (R170). -/
def execDecSrs (s : State) : Host.Outcome State Fault Refusal := runOp 0x42#8 decodeSubframe s

/-- `ENC.SRS` (R171). -/
def execEncSrs (s : State) : Host.Outcome State Fault Refusal := runOp 0x52#8 State.putSubframe s

/-! ### Header -/

/-- The fields of a NWK header (30_encoding.md R88); an absent one is 0 (10_state.md R46). -/
structure Header where
  fc : Word16
  dst : Word16
  src : Word16
  radius : Byte
  seq : Byte
  dieee : Word64
  sieee : Word64
  mc : Byte
  subframe : Subframe
deriving DecidableEq, Repr

/-- The subframe of a header: decoded iff `FC[10] == 1` (R172). -/
def State.takeSubframeIf (present : Bool) (s : State) : Except Failure (Subframe × State) :=
  if present then s.takeSubframe else .ok (Subframe.absent, s)

/-- Steps 2 and 3 of the header decode (R172): the fixed fields, then the flagged ones in field order. -/
def State.takeHeaderAfter (fc : Word16) (s : State) : Except Failure (Header × State) := do
  let (d, s1) ← s.take 2
  let (a, s2) ← s1.take 2
  let (r, s3) ← s2.take 1
  let (q, s4) ← s3.take 1
  let (di, s5) ← s4.takeIf (hasDieee fc) 8
  let (si, s6) ← s5.takeIf (hasSieee fc) 8
  let (m, s7) ← s6.takeIf (hasMc fc) 1
  let (f, s8) ← s7.takeSubframeIf (hasSrs fc)
  .ok (⟨fc, BitVec.ofNat 16 d, BitVec.ofNat 16 a, BitVec.ofNat 8 r, BitVec.ofNat 8 q,
    BitVec.ofNat 64 di, BitVec.ofNat 64 si, BitVec.ofNat 8 m, f⟩, s8)

/-- The whole header decode (R172): step 1, "`fc = Take(2)[13:0]`", then the rest. -/
def State.takeHeader (s : State) : Except Failure (Header × State) := do
  let (w, t) ← s.take 2
  t.takeHeaderAfter (dropReservedFc (BitVec.ofNat 16 w))

/-- The commit lines of the header decode (R172). -/
def State.commitHeader (s : State) (h : Header) : State :=
  ({ s with dst := h.dst, src := h.src, radius := h.radius, seq := h.seq,
            dieee := h.dieee, sieee := h.sieee, mc := h.mc }.setFc h.fc).commitSubframe h.subframe

/-- The header decode with its commit lines (R172). -/
def decodeHeader (s : State) : Except Failure State := do
  let (h, t) ← s.takeHeader
  .ok (t.commitHeader h)

/-- The header encode (R173): the fixed fields, then those whose flag is set in `FC`. -/
def encodeHeader (s : State) : Except Failure State := do
  let s1 ← s.put 2 s.fc.toNat
  let s2 ← s1.put 2 s.dst.toNat
  let s3 ← s2.put 2 s.src.toNat
  let s4 ← s3.put 1 s.radius.toNat
  let s5 ← s4.put 1 s.seq.toNat
  let s6 ← s5.putIf (hasDieee s.fc) 8 s.dieee.toNat
  let s7 ← s6.putIf (hasSieee s.fc) 8 s.sieee.toNat
  let s8 ← s7.putIf (hasMc s.fc) 1 s.mc.toNat
  if hasSrs s.fc then s8.putSubframe else .ok s8

/-- `DEC.HDR` (R172). -/
def execDecHdr (s : State) : Host.Outcome State Fault Refusal := runOp 0x43#8 decodeHeader s

/-- `ENC.HDR` (R173). -/
def execEncHdr (s : State) : Host.Outcome State Fault Refusal := runOp 0x53#8 encodeHeader s

/-! ### Command identifier -/

/-- `CID <- Take(1)` (R174). -/
def decodeCid (s : State) : Except Failure State := do
  let (b, t) ← s.take 1
  .ok { t with cid := BitVec.ofNat 8 b }

/-- `Put(1, CID)` (R175). -/
def encodeCid (s : State) : Except Failure State := s.put 1 s.cid.toNat

/-- `DEC.CID` (R174). -/
def execDecCid (s : State) : Host.Outcome State Fault Refusal := runOp 0x44#8 decodeCid s

/-- `ENC.CID` (R175). -/
def execEncCid (s : State) : Host.Outcome State Fault Refusal := runOp 0x54#8 encodeCid s

/-! ### The arms of a whole-frame decode, from the state after the header -/

/-- Arm Data (R178). -/
def decodeArmData (s : State) : Except Failure State := do
  let (p, t) ← s.takeRest s.cfg.payloadCap
  .ok ({ t with cid := 0 }.setPayload p)

/-- Arm NwkCommand (R179). -/
def decodeArmCommand (s : State) : Except Failure State := do
  let (c, t) ← s.take 1
  let (p, u) ← t.takeRest t.cfg.payloadCap
  .ok ({ u with cid := BitVec.ofNat 8 c }.setPayload p)

/-- Arm Reserved (R180): header only, nothing more is consumed. -/
def decodeArmReserved (s : State) : Except Failure State := .ok { s with cid := 0, plen := 0 }

/-- Arm InterPan (R181): header only, nothing more is consumed. -/
def decodeArmInterPan (s : State) : Except Failure State := .ok { s with cid := 0, plen := 0 }

/-- The dispatch of step 4 (R177). -/
def decodeArm (fc : Word16) (s : State) : Except Failure State :=
  match frameType fc with
  | .data => decodeArmData s
  | .nwkCommand => decodeArmCommand s
  | .reserved => decodeArmReserved s
  | .interPan => decodeArmInterPan s

/-- The whole-frame decode (R177). -/
def decodeFrame (s : State) : Except Failure State := do
  let (h, t) ← s.takeHeader
  decodeArm h.fc (t.commitHeader h)

/-- `DEC.FRM` (R177 to R181). -/
def execDecFrm (s : State) : Host.Outcome State Fault Refusal := runOp 0x45#8 decodeFrame s

/-! ### The arms of a whole-frame encode, from the state after the header -/

/-- Arm Data (R183): the payload; `CID` is ignored. -/
def encodeArmData (s : State) : Except Failure State := s.putSeq s.payload

/-- Arm NwkCommand (R184): the raw command identifier, then the payload. -/
def encodeArmCommand (s : State) : Except Failure State := do
  let t ← s.put 1 s.cid.toNat
  t.putSeq s.payload

/-- Arm Reserved (R185): nothing after the header. -/
def encodeArmReserved (s : State) : Except Failure State := .ok s

/-- Arm InterPan (R186): nothing after the header. -/
def encodeArmInterPan (s : State) : Except Failure State := .ok s

/-- The dispatch of the whole-frame encode (R182). -/
def encodeArm (fc : Word16) (s : State) : Except Failure State :=
  match frameType fc with
  | .data => encodeArmData s
  | .nwkCommand => encodeArmCommand s
  | .reserved => encodeArmReserved s
  | .interPan => encodeArmInterPan s

/-- The whole-frame encode (R182). -/
def encodeFrame (s : State) : Except Failure State := do
  let t ← encodeHeader s
  encodeArm s.fc t

/-- `ENC.FRM` (R182 to R186). -/
def execEncFrm (s : State) : Host.Outcome State Fault Refusal := runOp 0x55#8 encodeFrame s

/-! ### The wire rows (30_encoding.md R105)

A row is the arm of `DEC.FRM` that its own word, the FrameControl word at the cursor, selects. It runs under the code
of `DEC.FRM`: the word's two bytes are taken, the rest of the header follows as its flags say, then the arm. Log
entry 6. -/

/-- A frame whose FrameControl word has been read as the row's word `fc`, with the arm `arm`. -/
def decodeFrameAs (fc : Word16) (arm : State → Except Failure State) (s : State) : Except Failure State := do
  let (_, t) ← s.take 2
  let (h, u) ← t.takeHeaderAfter (dropReservedFc fc)
  arm (u.commitHeader h)

/-- `NWK.DATA` (R178). -/
def execNwkData (fc : Word16) (s : State) : Host.Outcome State Fault Refusal :=
  runOp 0x45#8 (decodeFrameAs fc decodeArmData) s

/-- `NWK.CMD` (R179). -/
def execNwkCmd (fc : Word16) (s : State) : Host.Outcome State Fault Refusal :=
  runOp 0x45#8 (decodeFrameAs fc decodeArmCommand) s

/-- `NWK.RSVD` (R180). -/
def execNwkRsvd (fc : Word16) (s : State) : Host.Outcome State Fault Refusal :=
  runOp 0x45#8 (decodeFrameAs fc decodeArmReserved) s

/-- `NWK.INTERPAN` (R181). -/
def execNwkInterPan (fc : Word16) (s : State) : Host.Outcome State Fault Refusal :=
  runOp 0x45#8 (decodeFrameAs fc decodeArmInterPan) s

/-- How many bytes the shortest whole frame with this FrameControl word has: the header with its flagged fields, an
empty relay list, and the command identifier of a NwkCommand frame (30_encoding.md R88, R94). -/
def frameBytes (fc : Word16) : Nat :=
  8 + (if hasDieee fc then 8 else 0) + (if hasSieee fc then 8 else 0) + (if hasMc fc then 1 else 0)
    + (if hasSrs fc then 2 else 0) + (if frameType fc = .nwkCommand then 1 else 0)

/-! ### Classification -/

/-- `TXR <- code(TXM_TABLE(discover_route(FC), FC[8], FC[11]))` (R187). -/
def classify (s : State) : Except Failure State :=
  .ok { s with txr := txmTable s.cfg (discoverRoute s.fc) (multicast s.fc) (destIeee s.fc) }

/-- `TXM` (R187). -/
def execTxm (s : State) : Host.Outcome State Fault Refusal := runOp 0x46#8 classify s

end Sys2Proof.Machine
end

