-- ==== Sys2Proof/Machine/SecurityAux.lean ====
section
/-! DEFINITION. The security auxiliary header (43_security_aux.md R210, R211). -/

namespace Sys2Proof.Machine

/-- The auxiliary-header decode (R210): control byte, frame counter, then the source address and the key sequence
number as the control byte says; an absent one is 0. -/
def decodeAux (s : State) : Except Failure State := do
  let (b, s1) ← s.take 1
  let sc := dropReservedSc (BitVec.ofNat 8 b)
  let (f, s2) ← s1.take 4
  let (a, s3) ← s2.takeIf (hasAsrc sc) 8
  let (k, s4) ← s3.takeIf (hasKseq sc) 1
  .ok ({ s4 with fcnt := BitVec.ofNat 32 f, asrc := BitVec.ofNat 64 a, kseq := BitVec.ofNat 8 k }.setScr sc)

/-- The auxiliary-header encode (R211). -/
def encodeAux (s : State) : Except Failure State := do
  let s1 ← s.put 1 s.scr.toNat
  let s2 ← s1.put 4 s.fcnt.toNat
  let s3 ← s2.putIf (hasAsrc s.scr) 8 s.asrc.toNat
  s3.putIf (hasKseq s.scr) 1 s.kseq.toNat

/-- `DEC.AUX` (R210). -/
def execDecAux (s : State) : Host.Outcome State Fault Refusal := runOp 0x61#8 decodeAux s

/-- `ENC.AUX` (R211). -/
def execEncAux (s : State) : Host.Outcome State Fault Refusal := runOp 0x71#8 encodeAux s

end Sys2Proof.Machine
end

