-- ==== Sys2Proof/Machine/Dispatch.lean ====
section
/-! DEFINITION. One arm per row of the opcode table: the meaning of each operation (30_encoding.md R82, R105). -/

namespace Sys2Proof.Machine

def exec (i : Instr) (s : State) : Host.Outcome State Fault Refusal :=
  match i with
  | .nop => Sys2Proof.Machine.execNop s
  | .clr => Sys2Proof.Machine.execClr s
  | .decU8 => Sys2Proof.Machine.execDecU8 s
  | .decU16 => Sys2Proof.Machine.execDecU16 s
  | .decU32 => Sys2Proof.Machine.execDecU32 s
  | .decU64 => Sys2Proof.Machine.execDecU64 s
  | .decBuf => Sys2Proof.Machine.execDecBuf s
  | .encU8 => Sys2Proof.Machine.execEncU8 s
  | .encU16 => Sys2Proof.Machine.execEncU16 s
  | .encU32 => Sys2Proof.Machine.execEncU32 s
  | .encU64 => Sys2Proof.Machine.execEncU64 s
  | .encBuf => Sys2Proof.Machine.execEncBuf s
  | .bfGet8 => Sys2Proof.Machine.execBfGet8 s
  | .bfGet16 => Sys2Proof.Machine.execBfGet16 s
  | .bfTst8 => Sys2Proof.Machine.execBfTst8 s
  | .bfTst16 => Sys2Proof.Machine.execBfTst16 s
  | .bfMake8 => Sys2Proof.Machine.execBfMake8 s
  | .bfMake16 => Sys2Proof.Machine.execBfMake16 s
  | .decFc => Sys2Proof.Machine.execDecFc s
  | .decMc => Sys2Proof.Machine.execDecMc s
  | .decSrs => Sys2Proof.Machine.execDecSrs s
  | .decHdr => Sys2Proof.Machine.execDecHdr s
  | .decCid => Sys2Proof.Machine.execDecCid s
  | .decFrm => Sys2Proof.Machine.execDecFrm s
  | .txm => Sys2Proof.Machine.execTxm s
  | .encFc => Sys2Proof.Machine.execEncFc s
  | .encMc => Sys2Proof.Machine.execEncMc s
  | .encSrs => Sys2Proof.Machine.execEncSrs s
  | .encHdr => Sys2Proof.Machine.execEncHdr s
  | .encCid => Sys2Proof.Machine.execEncCid s
  | .encFrm => Sys2Proof.Machine.execEncFrm s
  | .decSc => Sys2Proof.Machine.execDecSc s
  | .decAux => Sys2Proof.Machine.execDecAux s
  | .encSc => Sys2Proof.Machine.execEncSc s
  | .encAux => Sys2Proof.Machine.execEncAux s
  | .nwkData fc => Sys2Proof.Machine.execNwkData fc s
  | .nwkCmd fc => Sys2Proof.Machine.execNwkCmd fc s
  | .nwkRsvd fc => Sys2Proof.Machine.execNwkRsvd fc s
  | .nwkInterPan fc => Sys2Proof.Machine.execNwkInterPan fc s

end Sys2Proof.Machine
end

