-- ==== Sys2Proof/Machine/HostActions.lean ====
section
/-! DEFINITION. What the host does to the block and reads from it (10_state.md R20, R51; 44_control_and_host.md R223
to R228), and the pseudo-instructions of 30_encoding.md R107. -/

namespace Sys2Proof.Machine

/-! ### Checked writes -/

/-- `SETLEN n` (R225, R24): accepted iff `CUR <= n <= IB_CAP`. -/
def State.hostSetLen (s : State) (n : Word16) : State :=
  if s.cur.toNat ≤ n.toNat ∧ n.toNat ≤ s.cfg.ibCap then { s with len := n } else s

/-- `SEEK n` (R225, R25): accepted iff `n <= LEN`. -/
def State.hostSeek (s : State) (n : Word16) : State :=
  if n.toNat ≤ s.len.toNat then { s with cur := n } else s

/-- `OCLR` (R226, R26): `OLEN <- 0`; the bytes of `OB` are not erased. -/
def State.hostClearOutput (s : State) : State := { s with olen := 0 }

/-- A write to `RLEN` (R37, R227): accepted iff `v <= RELAY_CAP`. -/
def State.hostSetRlen (s : State) (n : Word16) : State :=
  if n.toNat ≤ s.cfg.relayCap then { s with rlen := n } else s

/-- A write to `PLEN` (R39, R227): accepted iff `v <= PAYLOAD_CAP`. -/
def State.hostSetPlen (s : State) (n : Word16) : State :=
  if n.toNat ≤ s.cfg.payloadCap then { s with plen := n } else s

/-! ### Registers by number (R20) -/

/-- A host write `SET reg, v` (R227): the value is truncated to the register's width, then checked where the register
is checked (log entry 8); writes to `STATUS`, `EPOS`, `TXR` and to numbers that do not exist are ignored. A write to
`OP` (number 0) starts an operation and is not performed here. That a number has 8 bits is log entry 13. -/
def State.writeReg (s : State) (reg : Byte) (v : Word64) : State :=
  match reg.toNat with
  | 0x03 => s.hostSetLen (v.setWidth 16)
  | 0x04 => s.hostSeek (v.setWidth 16)
  | 0x05 => s.hostClearOutput
  | 0x08 => { s with acc := v }
  | 0x09 => { s with foff := v.setWidth 8 }
  | 0x0A => { s with fwid := v.setWidth 8 }
  | 0x0B => { s with fval := v }
  | 0x10 => s.setFc (v.setWidth 16)
  | 0x11 => { s with dst := v.setWidth 16 }
  | 0x12 => { s with src := v.setWidth 16 }
  | 0x13 => { s with radius := v.setWidth 8 }
  | 0x14 => { s with seq := v.setWidth 8 }
  | 0x15 => { s with dieee := v }
  | 0x16 => { s with sieee := v }
  | 0x17 => { s with mc := v.setWidth 8 }
  | 0x18 => { s with rcnt := v.setWidth 8 }
  | 0x19 => { s with ridx := v.setWidth 8 }
  | 0x1A => s.hostSetRlen (v.setWidth 16)
  | 0x1B => { s with cid := v.setWidth 8 }
  | 0x1C => s.hostSetPlen (v.setWidth 16)
  | 0x20 => s.setScr (v.setWidth 8)
  | 0x21 => { s with fcnt := v.setWidth 32 }
  | 0x22 => { s with asrc := v }
  | 0x23 => { s with kseq := v.setWidth 8 }
  | _ => s

/-- A host read `GET reg` (R228, R20): `OP` reads 0, and so does a number that does not exist. That a number has
8 bits is log entry 13. -/
def State.readReg (s : State) (reg : Byte) : Word64 :=
  match reg.toNat with
  | 0x01 => s.status.setWidth 64
  | 0x02 => s.epos.setWidth 64
  | 0x03 => s.len.setWidth 64
  | 0x04 => s.cur.setWidth 64
  | 0x05 => s.olen.setWidth 64
  | 0x08 => s.acc
  | 0x09 => s.foff.setWidth 64
  | 0x0A => s.fwid.setWidth 64
  | 0x0B => s.fval
  | 0x0C => BitVec.ofNat 64 (txCode s.txr)
  | 0x10 => s.fc.setWidth 64
  | 0x11 => s.dst.setWidth 64
  | 0x12 => s.src.setWidth 64
  | 0x13 => s.radius.setWidth 64
  | 0x14 => s.seq.setWidth 64
  | 0x15 => s.dieee
  | 0x16 => s.sieee
  | 0x17 => s.mc.setWidth 64
  | 0x18 => s.rcnt.setWidth 64
  | 0x19 => s.ridx.setWidth 64
  | 0x1A => s.rlen.setWidth 64
  | 0x1B => s.cid.setWidth 64
  | 0x1C => s.plen.setWidth 64
  | 0x20 => s.scr.setWidth 64
  | 0x21 => s.fcnt.setWidth 64
  | 0x22 => s.asrc
  | 0x23 => s.kseq.setWidth 64
  | _ => 0

/-! ### Buffers -/

/-- `LOAD b` (R224): accepted iff `|b| <= IB_CAP`; `IB[i] <- b[i]`, `LEN <- |b|`, `CUR <- 0`. -/
def State.hostLoad (s : State) (b : List Byte) : State :=
  if b.length ≤ s.cfg.ibCap then
    { s with ib := Memory.setSeq s.ib 0 b, len := BitVec.ofNat 16 b.length, cur := 0 }
  else s

/-- `SETBUF PL, b` and `SETBUF RL, b` (R227): accepted iff the bytes fit the buffer. -/
def State.hostSetBuf (s : State) (buf : ValueBuf) (b : List Byte) : State :=
  match buf with
  | .pl => if b.length ≤ s.cfg.payloadCap then s.setPayload b else s
  | .rl => if b.length ≤ s.cfg.relayCap then s.setRelay b else s

/-- A host write of one byte of a buffer (R51): `IB`, `PL` and `RL` only, and only at an index that exists. -/
def State.hostSetByte (s : State) (sp : Space) (i : Nat) (v : Byte) : State :=
  if i < s.cfg.cap sp then
    match sp with
    | .ib => { s with ib := Memory.set s.ib i v }
    | .ob => s
    | .pl => { s with pl := Memory.set s.pl i v }
    | .rl => { s with rl := Memory.set s.rl i v }
  else s

/-- `RESET` (R223, 70_reset_and_hazards.md R260, R261): the registers take their reset values, the contents of the
buffers become unspecified anew, and the parameters stay. The host's own actions are not the block's. -/
def State.hostReset (s : State) : State :=
  { State.reset with cfg := s.cfg, pending := s.pending, epoch := s.epoch + 1 }

/-! ### One action -/

/-- The operation code an action writes to `OP`, if it writes there: `OP c`, or `SET` with the register number of
`OP` (R227, R20). -/
def operationRequest : HostAction → Option Byte
  | .op c => some c
  | .set reg v => if reg = 0 then some (v.setWidth 8) else none
  | .reset | .load _ | .setLen _ | .seek _ | .oclr | .setBuf _ _ | .setByte _ _ _ | .get _ | .getByte _ _ => none

/-- The effect of an action that starts no operation (R223 to R228); a read has none. -/
def hostAct (a : HostAction) (s : State) : State :=
  match a with
  | .reset => s.hostReset
  | .load b => s.hostLoad b
  | .setLen n => s.hostSetLen n
  | .seek n => s.hostSeek n
  | .oclr => s.hostClearOutput
  | .set reg v => s.writeReg reg v
  | .setBuf buf b => s.hostSetBuf buf b
  | .setByte sp i v => s.hostSetByte sp i v
  | .op _ => s
  | .get _ => s
  | .getByte _ _ => s

/-- What the host gets back from an action: the value of a register or of a byte that exists (R228). -/
def hostReply (a : HostAction) (s : State) : Option Word64 :=
  match a with
  | .get reg => some (s.readReg reg)
  | .getByte sp i => if i < s.cfg.cap sp then some ((s.readByte sp i).setWidth 64) else none
  | .reset | .load _ | .setLen _ | .seek _ | .oclr | .set _ _ | .setBuf _ _ | .setByte _ _ _ | .op _ => none

/-- The next host action is taken off the list. -/
def State.withPending (s : State) (rest : List HostAction) : State := { s with pending := rest }

/-! ### Pseudo-instructions (R107) -/

/-- `DECODE.FRAME b`: `LOAD b; OP DEC.FRM`. -/
def pseudoDecodeFrame (b : List Byte) : List HostAction := [.load b, .op 0x45#8]

/-- `DECODE.HEADER b`: `LOAD b; OP DEC.HDR`. -/
def pseudoDecodeHeader (b : List Byte) : List HostAction := [.load b, .op 0x43#8]

/-- `ENCODE.FRAME`: `OCLR; OP ENC.FRM`. -/
def pseudoEncodeFrame : List HostAction := [.oclr, .op 0x55#8]

/-- `LOOPBACK`: the host reads `OB[0 .. OLEN-1]`, then `LOAD`s those bytes. -/
def pseudoLoopback (s : State) : List HostAction := [.load s.output]

/-- `DROP`: `OP CLR`. -/
def pseudoDrop : List HostAction := [.op 0x01#8]

end Sys2Proof.Machine
end

