-- ==== Sys2Proof/Machine/Step.lean ====
section
/-! DEFINITION. One step: the next pending action of the host. A write to `OP` is decoded and runs one operation to
its end (10_state.md R21); every other action has the effect of its rule. -/

namespace Sys2Proof.Machine

/-- One step. With no action pending nothing happens (60_exceptions.md R238, 70_reset_and_hazards.md R260). -/
def step (s : State) : Host.Outcome State Fault Refusal :=
  match s.pending with
  | [] => .next s
  | a :: rest =>
    match operationRequest a with
    | none => .next (hostAct a (s.withPending rest))
    | some c =>
      match fetchOperation c with
      | .ok i => exec i (s.withPending rest)
      | .error _ => .next ((s.withPending rest).rejectCode c)

/-- The state with a table row's word placed where the next step takes it (log entry 7). An `OP8` code becomes the
host's next action. An `FC16` word stands at the cursor, followed by zero bytes up to the end of the shortest frame
it begins, `LEN` is that end, and the host's next action is `DEC.FRM`. -/
def State.withFetchWord (s : State) (nbits w : Nat) : State :=
  match formatOfBits nbits with
  | .op8 => { s with pending := .op (BitVec.ofNat 8 w) :: s.pending }
  | .fc16 =>
    let n := frameBytes (BitVec.ofNat 16 w)
    { s with
      ib := Memory.setSeq s.ib s.cur.toNat (leBytes n (w % 65536))
      len := BitVec.ofNat 16 (s.cur.toNat + n)
      pending := .op 0x45#8 :: s.pending }

end Sys2Proof.Machine
end

