-- ==== Sys2Proof/Safety.lean ====
section
/-! DEFINITION. What counts as a safe run, and the terms in which claims speak of wire values, of the bytes an encode
appends and of the field at which an operation fails. Each term is written from the spec's own wording, beside the
machine and not from it. -/

namespace Sys2Proof.Machine

/-! ### The invariant of R47 and R22 -/

/-- The state invariants of 10_state.md R47 and R22, with the canonical form of the four buffers. (`TXR <= 4` and
`STATE != 3` hold by the types.) -/
abbrev State.Inv (s : State) : Prop :=
  s.cur.toNat ≤ s.len.toNat ∧ s.len.toNat ≤ s.cfg.ibCap ∧ s.olen.toNat ≤ s.cfg.obCap ∧
  s.plen.toNat ≤ s.cfg.payloadCap ∧ s.rlen.toNat ≤ s.cfg.relayCap ∧
  s.fc.toNat < 0x4000 ∧ s.scr.toNat < 0x40 ∧
  (s.phase ≠ .failed → s.err = .noError ∧ s.epos = 0) ∧
  (s.phase = .failed →
    s.err = .insufficientBytes ∨ s.err = .capacityExceeded ∨ s.err = .illegalOp ∨ s.err = .badField) ∧
  (Memory.wf s.ib = true ∧ Memory.within s.ib s.cfg.ibCap = true) ∧
  (Memory.wf s.ob = true ∧ Memory.within s.ob s.cfg.obCap = true) ∧
  (Memory.wf s.pl = true ∧ Memory.within s.pl s.cfg.payloadCap = true) ∧
  (Memory.wf s.rl = true ∧ Memory.within s.rl s.cfg.relayCap = true)

/-- A run of `n` steps is safe when every state it passes through meets the invariant and it never stops. -/
def SafeRun : Nat → State → Prop
  | 0, s => s.Inv
  | n + 1, s => s.Inv ∧ ∃ t, step s = .next t ∧ SafeRun n t

/-! ### Wire values (00_scope.md R12) -/

/-- `MemRead(a, n)`: the sum over `i < n` of `IB[a+i] * 256^i` (R12, R13). -/
def State.wire (s : State) (a n : Nat) : Nat :=
  ∑ i ∈ Finset.range n, (s.readByte .ib (a + i)).toNat * 256 ^ i

/-- `IB[a .. a+n-1]`. -/
def State.scope (s : State) (a n : Nat) : List Byte := List.ofFn (fun i : Fin n => s.readByte .ib (a + i.val))

/-- `bytes_n(v)`: byte `i` is `v / 256^i` modulo 256 (R12). -/
def wireBytes (n v : Nat) : List Byte := List.ofFn (fun i : Fin n => BitVec.ofNat 8 (v / 256 ^ i.val))

/-- A flag bit as the number 0 or 1. -/
def bit (w : Word16) (k : Nat) : Nat := w.toNat / 2 ^ k % 2

/-- `8 + 8*FC[11] + 8*FC[12] + FC[8]`: the bytes of a header before its source-route subframe (30_encoding.md R89). -/
def headerLength (fc : Word16) : Nat := 8 + 8 * bit fc 11 + 8 * bit fc 12 + bit fc 8

/-! ### The views of the control words -/

/-- The view of the field `f` of `word` is the one that R153 to R155 give for the number `v`. A field of
MulticastControl or SecurityControl is viewed in the low byte of `word`. -/
def ViewReads (f : NamedField) (word : Word16) (v : Nat) : Prop :=
  match f with
  | .frameType =>
    (v = 0 ∧ frameType word = .data) ∨ (v = 1 ∧ frameType word = .nwkCommand) ∨
    (v = 2 ∧ frameType word = .reserved) ∨ (v = 3 ∧ frameType word = .interPan)
  | .protocolVersion => v = protocolVersion word
  | .discoverRoute =>
    (v = 0 ∧ discoverRoute word = .suppress) ∨ (v = 1 ∧ discoverRoute word = .enable) ∨
    ((v = 2 ∨ v = 3) ∧ discoverRoute word = .reserved)
  | .multicast => v = (multicast word).toNat
  | .security => v = (security word).toNat
  | .sourceRoute => v = (sourceRoute word).toNat
  | .destIeee => v = (destIeee word).toNat
  | .srcIeee => v = (srcIeee word).toNat
  | .endDeviceInitiator => v = (endDeviceInitiator word).toNat
  | .maxMemberRadius => v = maxMemberRadius (word.setWidth 8)
  | .nonMemberRadius => v = nonMemberRadius (word.setWidth 8)
  | .mcMode =>
    (v = 0 ∧ mcMode (word.setWidth 8) = .nonMember) ∨ (v = 1 ∧ mcMode (word.setWidth 8) = .member) ∨
    ((v = 2 ∨ v = 3) ∧ mcMode (word.setWidth 8) = .reserved)
  | .securityLevel => v = securityLevel (word.setWidth 8)
  | .keyIdentifier =>
    (v = 0 ∧ keyIdentifier (word.setWidth 8) = .data) ∨ (v = 1 ∧ keyIdentifier (word.setWidth 8) = .network) ∨
    (v = 2 ∧ keyIdentifier (word.setWidth 8) = .keyTransport) ∨ (v = 3 ∧ keyIdentifier (word.setWidth 8) = .keyLoad)
  | .extendedNonce => v = (extendedNonce (word.setWidth 8)).toNat

/-! ### Registers by number (10_state.md R20) -/

/-- The registers that a host write of `v` truncates and stores with no check (44_control_and_host.md R227), by
number, each with the state after that write: only the register changes. -/
def State.written (s : State) (v : Nat) : List (Nat × State) :=
  [(0x08, { s with acc := BitVec.ofNat 64 v }), (0x09, { s with foff := BitVec.ofNat 8 v }),
   (0x0A, { s with fwid := BitVec.ofNat 8 v }), (0x0B, { s with fval := BitVec.ofNat 64 v }),
   (0x10, { s with fc := BitVec.ofNat 16 (v % 0x4000) }), (0x11, { s with dst := BitVec.ofNat 16 v }),
   (0x12, { s with src := BitVec.ofNat 16 v }), (0x13, { s with radius := BitVec.ofNat 8 v }),
   (0x14, { s with seq := BitVec.ofNat 8 v }), (0x15, { s with dieee := BitVec.ofNat 64 v }),
   (0x16, { s with sieee := BitVec.ofNat 64 v }), (0x17, { s with mc := BitVec.ofNat 8 v }),
   (0x18, { s with rcnt := BitVec.ofNat 8 v }), (0x19, { s with ridx := BitVec.ofNat 8 v }),
   (0x1B, { s with cid := BitVec.ofNat 8 v }), (0x20, { s with scr := BitVec.ofNat 8 (v % 0x40) }),
   (0x21, { s with fcnt := BitVec.ofNat 32 v }), (0x22, { s with asrc := BitVec.ofNat 64 v }),
   (0x23, { s with kseq := BitVec.ofNat 8 v })]

/-- What a host read of each register returns (R228, R20), by number; `OP` reads 0. -/
def State.registerValues (s : State) : List (Nat × Nat) :=
  [(0x00, 0), (0x01, s.phase.code + 4 * s.err.code + 256 * s.lop.toNat), (0x02, s.epos.toNat), (0x03, s.len.toNat),
   (0x04, s.cur.toNat), (0x05, s.olen.toNat), (0x08, s.acc.toNat), (0x09, s.foff.toNat), (0x0A, s.fwid.toNat),
   (0x0B, s.fval.toNat), (0x0C, txCode s.txr), (0x10, s.fc.toNat), (0x11, s.dst.toNat), (0x12, s.src.toNat),
   (0x13, s.radius.toNat), (0x14, s.seq.toNat), (0x15, s.dieee.toNat), (0x16, s.sieee.toNat), (0x17, s.mc.toNat),
   (0x18, s.rcnt.toNat), (0x19, s.ridx.toNat), (0x1A, s.rlen.toNat), (0x1B, s.cid.toNat), (0x1C, s.plen.toNat),
   (0x20, s.scr.toNat), (0x21, s.fcnt.toNat), (0x22, s.asrc.toNat), (0x23, s.kseq.toNat)]

/-! ### Outcomes of an operation -/

/-- "Encoding: `OP8` = `c`" of an operation's rule: the code `c` decodes to `i`, and is the code `i` leaves in `LOP`. -/
def EncodedAs (c : Byte) (i : Instr) : Prop := decode .op8 [c] = .ok (i, []) ∧ i.opCode = c

/-- The state after a failure `e(p)` of the operation `code` (60_exceptions.md R236). -/
def State.raised (s : State) (e : ErrCode) (p : Nat) (code : Byte) : State :=
  { s with phase := .failed, err := e, epos := BitVec.ofNat 16 p, lop := code }

/-- `t` is `s` after the operation `code` appended the bytes `b` to the output and changed nothing else. That the bytes of
`OB` above the appended ones are kept rests on log entry 5. -/
def Appended (code : Byte) (b : List Byte) (s t : State) : Prop :=
  t = { s with ob := t.ob, olen := BitVec.ofNat 16 (s.olen.toNat + b.length), phase := .done, lop := code } ∧
  (∀ i, ∀ h : i < b.length, t.readByte .ob (s.olen.toNat + i) = b[i]) ∧
  (∀ a, a < s.olen.toNat ∨ s.olen.toNat + b.length ≤ a → t.readByte .ob a = s.readByte .ob a)

/-- The buffer `sp` of `t` holds the bytes `b` from index 0, and above them what it held in `s` (that they are kept
there rests on log entry 5). -/
def Stored (sp : Space) (b : List Byte) (s t : State) : Prop :=
  (∀ i, ∀ h : i < b.length, t.readByte sp i = b[i]) ∧
  (∀ a, b.length ≤ a → t.readByte sp a = s.readByte sp a)

/-! ### Fields in order, and the first that does not fit (60_exceptions.md R237) -/

/-- The start of the first of the fields of the given widths, laid one after another from `p`, that does not end by
`limit`. -/
def firstUnfit (limit : Nat) : Nat → List Nat → Option Nat
  | _, [] => none
  | p, n :: ns => if limit < p + n then some p else firstUnfit limit (p + n) ns

/-- The widths of a header's integer fields in wire order (30_encoding.md R88, R92). -/
def headerWidths (fc : Word16) : List Nat :=
  [2, 2, 2, 1, 1] ++ (if bit fc 11 = 1 then [8] else []) ++ (if bit fc 12 = 1 then [8] else []) ++
    (if bit fc 8 = 1 then [1] else []) ++ (if bit fc 10 = 1 then [1, 1] else [])

/-- The widths of an auxiliary header's fields in wire order (R99). -/
def auxWidths (sc : Byte) : List Nat :=
  [1, 4] ++ (if sc.toNat / 32 % 2 = 1 then [8] else []) ++ (if sc.toNat / 8 % 4 = 1 then [1] else [])

/-! ### The canonical bytes of the register values (30_encoding.md R104) -/

/-- `PL[0 .. PLEN-1]`. -/
def State.payloadBytes (s : State) : List Byte := List.ofFn (fun i : Fin s.plen.toNat => s.readByte .pl i.val)

/-- `RL[0 .. RLEN-1]`. -/
def State.relayBytes (s : State) : List Byte := List.ofFn (fun i : Fin s.rlen.toNat => s.readByte .rl i.val)

/-- The fields of a source-route subframe (R92). -/
def State.subframeFields (s : State) : List (List Byte) :=
  [wireBytes 1 s.rcnt.toNat, wireBytes 1 s.ridx.toNat, s.relayBytes]

/-- The fields of a header, those whose flag in `FC` is clear left out (R88). -/
def State.headerFields (s : State) : List (List Byte) :=
  [wireBytes 2 s.fc.toNat, wireBytes 2 s.dst.toNat, wireBytes 2 s.src.toNat, wireBytes 1 s.radius.toNat,
    wireBytes 1 s.seq.toNat] ++
  (if bit s.fc 11 = 1 then [wireBytes 8 s.dieee.toNat] else []) ++
  (if bit s.fc 12 = 1 then [wireBytes 8 s.sieee.toNat] else []) ++
  (if bit s.fc 8 = 1 then [wireBytes 1 s.mc.toNat] else []) ++
  (if bit s.fc 10 = 1 then s.subframeFields else [])

/-- The fields of a frame's body (R94). -/
def State.bodyFields (s : State) : List (List Byte) :=
  if s.fc.toNat % 4 = 0 then [s.payloadBytes]
  else if s.fc.toNat % 4 = 1 then [wireBytes 1 s.cid.toNat, s.payloadBytes]
  else []

/-- The fields of a whole frame (R94). -/
def State.frameFields (s : State) : List (List Byte) := s.headerFields ++ s.bodyFields

/-- The fields of an auxiliary header (R99). -/
def State.auxFields (s : State) : List (List Byte) :=
  [wireBytes 1 s.scr.toNat, wireBytes 4 s.fcnt.toNat] ++
  (if s.scr.toNat / 32 % 2 = 1 then [wireBytes 8 s.asrc.toNat] else []) ++
  (if s.scr.toNat / 8 % 4 = 1 then [wireBytes 1 s.kseq.toNat] else [])

/-- The instruction `i`, run on `s`, appends the given fields if they all fit the output buffer, and otherwise fails
with `CapacityExceeded` at the start of the first that does not fit (20_memory.md R66, 60_exceptions.md R232,
R236; log entry 5 for the bytes of `OB` above the appended ones). -/
def EncodesFields (i : Instr) (fields : List (List Byte)) (s : State) : Prop :=
  (s.olen.toNat + fields.flatten.length ≤ s.cfg.obCap →
    ∃ t, exec i s = .next t ∧ Appended i.opCode fields.flatten s t) ∧
  (∀ p, firstUnfit s.cfg.obCap s.olen.toNat (fields.map List.length) = some p →
    exec i s = .next (s.raised .capacityExceeded p i.opCode))

/-! ### Decoded headers and frames -/

/-- What a header decode from index `c` writes to the registers of a header without a source-route subframe
(42_nwk_frame.md R172, 30_encoding.md R88): `fc` is the FrameControl word at `c`. -/
def State.withPlainHeader (s : State) (c : Nat) (fc : Word16) : State :=
  { s with
    fc := BitVec.ofNat 16 (fc.toNat % 0x4000)
    dst := BitVec.ofNat 16 (s.wire (c + 2) 2)
    src := BitVec.ofNat 16 (s.wire (c + 4) 2)
    radius := BitVec.ofNat 8 (s.wire (c + 6) 1)
    seq := BitVec.ofNat 8 (s.wire (c + 7) 1)
    dieee := if bit fc 11 = 1 then BitVec.ofNat 64 (s.wire (c + 8) 8) else 0
    sieee := if bit fc 12 = 1 then BitVec.ofNat 64 (s.wire (c + 8 + 8 * bit fc 11) 8) else 0
    mc := if bit fc 8 = 1 then BitVec.ofNat 8 (s.wire (c + 8 + 8 * bit fc 11 + 8 * bit fc 12) 1) else 0
    rcnt := 0
    ridx := 0
    rlen := 0
    cur := BitVec.ofNat 16 (c + headerLength fc) }

/-- The same for a header with a source-route subframe, except for the contents of `RL` (R170, R172): the relay list
takes every byte up to `LEN`. -/
def State.withRoutedHeader (s : State) (c : Nat) (fc : Word16) : State :=
  { s.withPlainHeader c fc with
    rcnt := BitVec.ofNat 8 (s.wire (c + headerLength fc) 1)
    ridx := BitVec.ofNat 8 (s.wire (c + headerLength fc + 1) 1)
    rlen := BitVec.ofNat 16 (s.len.toNat - (c + headerLength fc + 2))
    cur := s.len }

/-- The FrameControl word at the cursor. -/
def State.nextFc (s : State) : Word16 := BitVec.ofNat 16 (s.wire s.cur.toNat 2)

/-- The operation `code` completes: `STATE <- Done; LOP <- code` (10_state.md R21). -/
def State.doneWith (s : State) (code : Byte) : State := { s with phase := .done, lop := code }

/-- Two states hold the same frame value (42_nwk_frame.md R190). -/
def SameFrame (s t : State) : Prop :=
  s.fc = t.fc ∧ s.dst = t.dst ∧ s.src = t.src ∧ s.radius = t.radius ∧ s.seq = t.seq ∧
  (bit s.fc 11 = 1 → s.dieee = t.dieee) ∧ (bit s.fc 12 = 1 → s.sieee = t.sieee) ∧
  (bit s.fc 8 = 1 → s.mc = t.mc) ∧
  (bit s.fc 10 = 1 → s.rcnt = t.rcnt ∧ s.ridx = t.ridx ∧ s.relayBytes = t.relayBytes) ∧
  (s.fc.toNat % 4 = 0 → s.payloadBytes = t.payloadBytes) ∧
  (s.fc.toNat % 4 = 1 → s.cid = t.cid ∧ s.payloadBytes = t.payloadBytes)

/-- The codes that R84 lists as illegal. -/
abbrev IllegalCode (c : Byte) : Prop :=
  (0x02 ≤ c.toNat ∧ c.toNat ≤ 0x0F) ∨ (0x15 ≤ c.toNat ∧ c.toNat ≤ 0x1F) ∨ (0x25 ≤ c.toNat ∧ c.toNat ≤ 0x2F) ∨
  (0x36 ≤ c.toNat ∧ c.toNat ≤ 0x3F) ∨ (0x47 ≤ c.toNat ∧ c.toNat ≤ 0x4F) ∨ (0x56 ≤ c.toNat ∧ c.toNat ≤ 0x5F) ∨
  (0x62 ≤ c.toNat ∧ c.toNat ≤ 0x6F) ∨ (0x72 ≤ c.toNat ∧ c.toNat ≤ 0xFF)

end Sys2Proof.Machine
end

