-- ==== Sys2Proof/Certificates/Slice0/Obligations.lean ====
section
/-! DEFINITION. The statements for the provers. A statement's docstring names the rules of spec/ it rests on. The terms
`wire`, `scope`, `wireBytes`, `Appended`, `Stored`, `raised`, `firstUnfit` and the field lists stand in
Sys2Proof/Safety.lean, written from the spec's wording.

"Completes" always means: the state is not `Failed` (R21, R239) and the fields fit; a second clause says where the
form fails instead, with none of its effect (R236). -/

open Sys2Proof Sys2Proof.Machine

/-! ### Encoding -/

/-- Words written out from 30_encoding.md R82 and R105 decode to their rows. -/
def Obligations.TableWordsDecodeToTheirRows : Prop :=
  decodeTableWord 8 0x00 = some .nop ∧ decodeTableWord 8 0x12 = some .decU32 ∧
  decodeTableWord 8 0x24 = some .encBuf ∧ decodeTableWord 8 0x33 = some .bfTst16 ∧
  decodeTableWord 8 0x45 = some .decFrm ∧ decodeTableWord 8 0x53 = some .encHdr ∧
  decodeTableWord 8 0x61 = some .decAux ∧ decodeTableWord 8 0x70 = some .encSc ∧
  decodeTableWord 16 0x2A7C = some (.nwkData 0x2A7C) ∧ decodeTableWord 16 0x1209 = some (.nwkCmd 0x1209) ∧
  decodeTableWord 16 0xC00A = some (.nwkRsvd 0x000A) ∧ decodeTableWord 8 0x99 = none

/-- Decode and encode agree, for every instruction and every operand its encoding admits (R82, R105). -/
def Obligations.DecodeOfEncodeIsTheInstruction : Prop :=
  ∀ (i : Instr) (rest : List Byte), i.wf = true → decode i.format (encode i ++ rest) = .ok (i, rest)

/-- The codes refused are exactly those R84 lists, and a code that is not refused is the one its instruction is
encoded with (R82, R84). -/
def Obligations.RefusedCodesAreExactlyTheIllegalOnes : Prop :=
  ∀ c : Byte,
    (IllegalCode c → decode .op8 [c] = .error (.unassigned c)) ∧
    (¬ IllegalCode c → ∃ i, decode .op8 [c] = .ok (i, []) ∧ i.format = .op8 ∧ encode i = [c])

/-- A FrameControl word decodes to a well-formed wire row, and only its reserved bits 15:14 are lost (R85, R100,
R105). -/
def Obligations.FrameWordLosesOnlyReservedBits : Prop :=
  ∀ w : Word16, (decodeFrameWord w).wf = true ∧ encode (decodeFrameWord w) = wireBytes 2 (w.toNat % 0x4000)

/-! ### The operation cycle -/

/-- When the host's next action writes a code to `OP` (`OP c`, or `SET` of register 0, R227) and the code decodes to an
instruction, the step is that instruction's `exec`, with the action taken off the host's list (10_state.md R21). -/
def Obligations.StepRunsTheDecodedOperation : Prop :=
  ∀ (s : State) (a : HostAction) (c : Byte) (rest : List HostAction) (i : Instr),
    s.pending = a :: rest → a = .op c ∨ (∃ v : Word64, a = .set 0x00#8 v ∧ c.toNat = v.toNat % 256) →
    decode .op8 [c] = .ok (i, []) → step s = exec i { s with pending := rest }

/-- The wire rows are the arms of `DEC.FRM`: with two bytes left in the scope, `DEC.FRM` does what the row does that
the FrameControl word at the cursor decodes to, and a step on a write of 0x45 runs it (R105, R177; log entry 6). -/
def Obligations.DecFrmRunsTheRowOfTheFrameWord : Prop :=
  ∀ s : State, s.cur.toNat + 2 ≤ s.len.toNat →
    exec .decFrm s = exec (decodeFrameWord s.nextFc) s ∧
    ∀ rest, step { s with pending := .op 0x45#8 :: rest } =
      exec (decodeFrameWord s.nextFc) { s with pending := rest }

/-- An unassigned code, however it is written to `OP`, fails with `IllegalOp`, position 0, and the code in `LOP`, and
changes nothing else (60_exceptions.md R234). -/
def Obligations.IllegalCodeRaisesIllegalOp : Prop :=
  ∀ (s : State) (a : HostAction) (c : Byte) (rest : List HostAction),
    s.pending = a :: rest → a = .op c ∨ (∃ v : Word64, a = .set 0x00#8 v ∧ c.toNat = v.toNat % 256) →
    IllegalCode c → s.phase ≠ .failed →
      step s = .next (({ s with pending := rest }).raised .illegalOp 0 c)

/-- `Failed` is terminal (60_exceptions.md R239): every code but `CLR`'s, however it is written to `OP`, changes nothing;
and the host's other actions keep their effect. -/
def Obligations.FailedIgnoresEveryCodeButClr : Prop :=
  ∀ (s : State) (rest : List HostAction), s.phase = .failed →
    (∀ i, i ≠ .clr → exec i s = .next s) ∧
    (∀ a c, c ≠ 0x01#8 → a = .op c ∨ (∃ v : Word64, a = .set 0x00#8 v ∧ c.toNat = v.toNat % 256) →
      s.pending = a :: rest → step s = .next { s with pending := rest }) ∧
    (∀ a, (∀ c, a ≠ .op c) → (∀ v, a ≠ .set 0x00#8 v) → s.pending = a :: rest →
      step s = .next (hostAct a { s with pending := rest }))

/-- `CLR` returns to `Idle` from every state and changes nothing else, and is the only operation accepted in `Failed`
(44_control_and_host.md R221); `NOP` changes nothing in any state (R220). -/
def Obligations.ClrReturnsToIdleAndNopChangesNothing : Prop :=
  EncodedAs 0x01#8 .clr ∧ EncodedAs 0x00#8 .nop ∧
  ∀ s : State,
    exec .clr s = .next { s with phase := .idle, err := .noError, epos := 0, lop := 0x01#8 } ∧
    (s.phase = .failed → ∀ i, i ≠ .clr → exec i s = .next s) ∧
    exec .nop s = .next s

/-- An accepted operation ends `Done` with the old error fields or `Failed`, and its code in `LOP` (R21). -/
def Obligations.AcceptedOperationRecordsItsCode : Prop :=
  ∀ (i : Instr) (s t : State), i ≠ .nop → i ≠ .clr → s.phase ≠ .failed → exec i s = .next t →
    t.lop = i.opCode ∧ ((t.phase = .done ∧ t.err = s.err ∧ t.epos = s.epos) ∨ t.phase = .failed)

/-- Failures are precise (60_exceptions.md R236): the state after one is the state before the operation but for the
four status fields. -/
def Obligations.FailureDiscardsEveryWrite : Prop :=
  ∀ (i : Instr) (s t : State), exec i s = .next t → s.phase ≠ .failed → t.phase = .failed →
    t = s.raised t.err t.epos.toNat i.opCode ∧
    (t.err = .insufficientBytes ∨ t.err = .capacityExceeded ∨ t.err = .badField)

/-- No state and no action stops the machine, and `CLR` leaves every failure (60_exceptions.md R242). -/
def Obligations.EveryStepAnswersNext : Prop :=
  ∀ s : State, (∃ t, step s = .next t) ∧ (∀ i, ∃ t, exec i s = .next t) ∧
    ∃ t, exec .clr s = .next t ∧ t.phase = .idle

/-! ### Reset and invariants -/

/-- Reset (10_state.md R52): every register 0, `TXR` Unknown, no byte of a buffer with a value. That a register number
has 8 bits is the model's choice (log entry 13). -/
def Obligations.ResetLeavesTheResetValues : Prop :=
  State.reset.status = 0 ∧ (∀ reg : Byte, reg ≠ 0x0C#8 → State.reset.readReg reg = 0) ∧
  State.reset.readReg 0x0C#8 = 4 ∧
  (∀ sp i, Memory.get? (State.reset.mem sp) i = none)

/-- The invariant holds at reset (10_state.md R47). -/
def Obligations.ResetMeetsTheInvariant : Prop := State.reset.Inv

/-- Every step keeps the invariants of 10_state.md R47 and R22 and the canonical form of the buffers. -/
def Obligations.StepKeepsTheInvariant : Prop :=
  ∀ s t : State, s.Inv → step s = .next t → t.Inv

/-- The parameters never change (00_scope.md R6, 70_reset_and_hazards.md R261). -/
def Obligations.StepKeepsTheParameters : Prop :=
  ∀ s t : State, step s = .next t → t.cfg = s.cfg

/-- The error code 3 is never raised (60_exceptions.md R233). -/
def Obligations.MalformedTagIsNeverRaised : Prop :=
  ∀ s t : State, step s = .next t → t.err = .malformedTag → s.err = .malformedTag

/-- No operation writes `LEN` (10_state.md R24), `FOFF` or `FWID` (R28) or the input buffer (R44); the model's own
fields stay too. -/
def Obligations.NoOperationWritesTheInputSide : Prop :=
  ∀ (i : Instr) (s t : State), exec i s = .next t →
    t.len = s.len ∧ t.foff = s.foff ∧ t.fwid = s.fwid ∧ t.ib = s.ib ∧
    t.cfg = s.cfg ∧ t.pending = s.pending ∧ t.epoch = s.epoch

/-- Encode, bitfield and control operations and `TXM` never change `CUR` or a decoded NWK or security register
(10_state.md R25, 70_reset_and_hazards.md R271). -/
def Obligations.OnlyDecodesMoveTheCursor : Prop :=
  ∀ (i : Instr) (s t : State),
    i ∈ [Instr.nop, .clr, .encU8, .encU16, .encU32, .encU64, .encBuf, .bfGet8, .bfGet16, .bfTst8, .bfTst16, .bfMake8,
      .bfMake16, .txm, .encFc, .encMc, .encSrs, .encHdr, .encCid, .encFrm, .encSc, .encAux] →
    exec i s = .next t →
      t.cur = s.cur ∧ t.fc = s.fc ∧ t.dst = s.dst ∧ t.src = s.src ∧ t.radius = s.radius ∧ t.seq = s.seq ∧
      t.dieee = s.dieee ∧ t.sieee = s.sieee ∧ t.mc = s.mc ∧ t.rcnt = s.rcnt ∧ t.ridx = s.ridx ∧ t.rlen = s.rlen ∧
      t.cid = s.cid ∧ t.plen = s.plen ∧ t.scr = s.scr ∧ t.fcnt = s.fcnt ∧ t.asrc = s.asrc ∧ t.kseq = s.kseq ∧
      t.pl = s.pl ∧ t.rl = s.rl

/-- Only encode operations write the output buffer and its length (10_state.md R26, R45). -/
def Obligations.OnlyEncodesWriteTheOutput : Prop :=
  ∀ (i : Instr) (s t : State),
    i ∉ [Instr.encU8, .encU16, .encU32, .encU64, .encBuf, .encFc, .encMc, .encSrs, .encHdr, .encCid, .encFrm, .encSc,
      .encAux] →
    exec i s = .next t → t.ob = s.ob ∧ t.olen = s.olen

/-! ### Primitive decodes and encodes -/

/-- `DEC.U8`, `DEC.U16`, `DEC.U32`, `DEC.U64` (40_codec_primitives.md R120 to R123): `ACC` is the zero-extended
little-endian value of the next bytes and `CUR` moves past them; with too few bytes the operation fails at `CUR`. -/
def Obligations.IntegerDecodesTakeLittleEndian : Prop :=
  ∀ (s : State) (i : Instr) (c : Byte) (n : Nat),
    (i, c, n) ∈ [(Instr.decU8, 0x10#8, 1), (.decU16, 0x11#8, 2), (.decU32, 0x12#8, 4), (.decU64, 0x13#8, 8)] →
    s.phase ≠ .failed →
    EncodedAs c i ∧
    (s.cur.toNat + n ≤ s.len.toNat →
      exec i s = .next ({ s with
        acc := BitVec.ofNat 64 (s.wire s.cur.toNat n)
        cur := BitVec.ofNat 16 (s.cur.toNat + n) }.doneWith c)) ∧
    (s.len.toNat - s.cur.toNat < n →
      exec i s = .next (s.raised .insufficientBytes s.cur.toNat c))

/-- `DEC.BUF` (R124): every remaining byte goes to `PL`, or the operation fails when there are more than
`PAYLOAD_CAP`. That the bytes of `PL` above the new `PLEN` are kept is the model's reading (log entry 5; U7 calls them
unspecified). -/
def Obligations.DecBufTakesTheRestOrFails : Prop :=
  EncodedAs 0x14#8 .decBuf ∧
  ∀ s : State, s.phase ≠ .failed →
    (s.len.toNat - s.cur.toNat ≤ s.cfg.payloadCap →
      ∃ t, exec .decBuf s = .next t ∧
        t = { s with pl := t.pl, plen := BitVec.ofNat 16 (s.len.toNat - s.cur.toNat), cur := s.len }.doneWith 0x14#8 ∧
        Stored .pl (s.scope s.cur.toNat (s.len.toNat - s.cur.toNat)) s t) ∧
    (s.cfg.payloadCap < s.len.toNat - s.cur.toNat →
      exec .decBuf s = .next (s.raised .capacityExceeded s.cur.toNat 0x14#8))

/-- `ENC.U8`, `ENC.U16`, `ENC.U32`, `ENC.U64` (R125 to R128): the low bytes of `ACC` are appended least significant
first, or the operation fails at `OLEN`, writing nothing. That the bytes of `OB` above the appended ones are kept is
the model's reading (log entry 5; U7 calls them unspecified). -/
def Obligations.IntegerEncodesAppendTheLowBytes : Prop :=
  ∀ (s : State) (i : Instr) (c : Byte) (n : Nat),
    (i, c, n) ∈ [(Instr.encU8, 0x20#8, 1), (.encU16, 0x21#8, 2), (.encU32, 0x22#8, 4), (.encU64, 0x23#8, 8)] →
    s.phase ≠ .failed →
    EncodedAs c i ∧
    (s.olen.toNat + n ≤ s.cfg.obCap →
      ∃ t, exec i s = .next t ∧ Appended c (wireBytes n s.acc.toNat) s t) ∧
    (s.cfg.obCap < s.olen.toNat + n →
      exec i s = .next (s.raised .capacityExceeded s.olen.toNat c))

/-- `ENC.BUF` (R129): `PL[0 .. PLEN-1]` is appended with no length before it, or the operation fails at `OLEN`,
writing nothing. That the bytes of `OB` above the appended ones are kept is the model's reading (log entry 5; U7 calls
them unspecified). -/
def Obligations.EncBufAppendsThePayload : Prop :=
  EncodedAs 0x24#8 .encBuf ∧
  ∀ s : State, s.phase ≠ .failed →
    (s.olen.toNat + s.plen.toNat ≤ s.cfg.obCap →
      ∃ t, exec .encBuf s = .next t ∧ Appended 0x24#8 s.payloadBytes s t) ∧
    (s.cfg.obCap < s.olen.toNat + s.plen.toNat →
      exec .encBuf s = .next (s.raised .capacityExceeded s.olen.toNat 0x24#8))

/-- Round trip of the primitives (R134). Encode first: a value `v < 256^n` in `ACC`, encoded into an empty output, the
bytes produced loaded and decoded, comes back. Decode first: the `n` bytes at the cursor, decoded and then encoded into
an empty output, are the output. And a payload that fits, encoded into an empty output, loaded and decoded, comes back. -/
def Obligations.IntegerRoundTrip : Prop :=
  (∀ (s : State) (e d : Instr) (n : Nat),
    (e, d, n) ∈ [(Instr.encU8, Instr.decU8, 1), (.encU16, .decU16, 2), (.encU32, .decU32, 4), (.encU64, .decU64, 8)] →
    s.phase ≠ .failed → s.olen = 0 → n ≤ s.cfg.obCap →
    (n ≤ s.cfg.ibCap → s.acc.toNat < 256 ^ n →
      ∃ t u, exec e s = .next t ∧ exec d (hostAct (.load t.output) t) = .next u ∧ u.phase = .done ∧ u.acc = s.acc) ∧
    (s.cur.toNat + n ≤ s.len.toNat →
      ∃ t u, exec d s = .next t ∧ exec e t = .next u ∧ u.phase = .done ∧ u.olen.toNat = n ∧
        ∀ a, a < n → u.readByte .ob a = s.readByte .ib (s.cur.toNat + a))) ∧
  (∀ s : State, s.phase ≠ .failed → s.olen = 0 →
    s.plen.toNat ≤ s.cfg.payloadCap → s.plen.toNat ≤ s.cfg.obCap → s.plen.toNat ≤ s.cfg.ibCap →
      ∃ t u, exec .encBuf s = .next t ∧ exec .decBuf (hostAct (.load t.output) t) = .next u ∧ u.phase = .done ∧
        u.payloadBytes = s.payloadBytes)

/-! ### Bitfield utilities -/

/-- `BF.GET8` and `BF.GET16` (41_bitfield.md R140, R141). -/
def Obligations.BitfieldGetExtractsTheField : Prop :=
  ∀ (s : State) (i : Instr) (c : Byte) (w : Nat),
    (i, c, w) ∈ [(Instr.bfGet8, 0x30#8, 8), (.bfGet16, 0x31#8, 16)] → s.phase ≠ .failed →
    EncodedAs c i ∧
    (s.foff.toNat + s.fwid.toNat ≤ w →
      exec i s = .next ({ s with
        fval := BitVec.ofNat 64 (s.acc.toNat % 2 ^ w / 2 ^ s.foff.toNat % 2 ^ s.fwid.toNat) }.doneWith c)) ∧
    (w < s.foff.toNat + s.fwid.toNat → exec i s = .next (s.raised .badField 0 c))

/-- `BF.TST8` and `BF.TST16` (R142, R143). -/
def Obligations.BitfieldTestReadsOneBit : Prop :=
  ∀ (s : State) (i : Instr) (c : Byte) (w : Nat),
    (i, c, w) ∈ [(Instr.bfTst8, 0x32#8, 8), (.bfTst16, 0x33#8, 16)] → s.phase ≠ .failed →
    EncodedAs c i ∧
    (s.foff.toNat < w →
      exec i s = .next ({ s with
        fval := BitVec.ofNat 64 (s.acc.toNat / 2 ^ s.foff.toNat % 2) }.doneWith c)) ∧
    (w ≤ s.foff.toNat → exec i s = .next (s.raised .badField 0 c))

/-- `BF.MAKE8` and `BF.MAKE16` (R144, R145): with the field inside the word, a value that fits it and no flag in it,
`ACC` is the flags and the shifted value together (their sum, since they share no bit); otherwise `BadField`. -/
def Obligations.BitfieldMakeBuildsTheWord : Prop :=
  ∀ (s : State) (i : Instr) (c : Byte) (w : Nat),
    (i, c, w) ∈ [(Instr.bfMake8, 0x34#8, 8), (.bfMake16, 0x35#8, 16)] → s.phase ≠ .failed →
    EncodedAs c i ∧
    (s.foff.toNat + s.fwid.toNat ≤ w ∧ s.fval.toNat < 2 ^ s.fwid.toNat ∧
        s.acc.toNat % 2 ^ w / 2 ^ s.foff.toNat % 2 ^ s.fwid.toNat = 0 →
      exec i s = .next ({ s with
        acc := BitVec.ofNat 64 (s.acc.toNat % 2 ^ w + s.fval.toNat * 2 ^ s.foff.toNat) }.doneWith c)) ∧
    (w < s.foff.toNat + s.fwid.toNat ∨ 2 ^ s.fwid.toNat ≤ s.fval.toNat ∨
        s.acc.toNat % 2 ^ w / 2 ^ s.foff.toNat % 2 ^ s.fwid.toNat ≠ 0 →
      exec i s = .next (s.raised .badField 0 c))

/-- Views and utilities agree (R157, with the rows of 30_encoding.md R102): the `FVAL` that the utility of the word's
width returns for the field's offset and width is the field's value (R103), and it is the number of the field's view:
`protocolVersion`, `multicast` and so on, each by its name (`ViewReads`, R153 to R155); for a one-bit field so is the
`FVAL` of the test. The word is 8 bits wide for the fields of MulticastControl and SecurityControl. -/
def Obligations.ViewsAgreeWithUtilities : Prop :=
  ∀ (s : State) (f : NamedField) (word : Word16), s.phase ≠ .failed →
    word.toNat < 2 ^ fieldWordBits f → s.acc = word.setWidth 64 → s.foff.toNat = fieldOffset f →
    (s.fwid.toNat = fieldWidth f →
      ∃ t, exec (if fieldWordBits f = 8 then .bfGet8 else .bfGet16) s = .next t ∧ t.phase = .done ∧
        t.fval.toNat = fieldNumber f word ∧ ViewReads f word t.fval.toNat) ∧
    (fieldWidth f = 1 →
      ∃ t, exec (if fieldWordBits f = 8 then .bfTst8 else .bfTst16) s = .next t ∧ t.phase = .done ∧
        t.fval.toNat = fieldNumber f word ∧ ViewReads f word t.fval.toNat)

/-- The enumerated views (R153 to R155, 42_nwk_frame.md R176): each tag number has the value its table gives it, and
every number without a meaning of its own falls back to Reserved (R101, R156). -/
def Obligations.TagNumbersHaveTheirMeanings : Prop :=
  (∀ fc : Word16,
    (frameType fc = .data ↔ fc.toNat % 4 = 0) ∧ (frameType fc = .nwkCommand ↔ fc.toNat % 4 = 1) ∧
    (frameType fc = .reserved ↔ fc.toNat % 4 = 2) ∧ (frameType fc = .interPan ↔ fc.toNat % 4 = 3) ∧
    (discoverRoute fc = .suppress ↔ fc.toNat / 64 % 4 = 0) ∧ (discoverRoute fc = .enable ↔ fc.toNat / 64 % 4 = 1) ∧
    (discoverRoute fc = .reserved ↔ 2 ≤ fc.toNat / 64 % 4)) ∧
  (∀ b : Byte,
    (mcMode b = .nonMember ↔ b.toNat / 64 = 0) ∧ (mcMode b = .member ↔ b.toNat / 64 = 1) ∧
    (mcMode b = .reserved ↔ 2 ≤ b.toNat / 64) ∧
    (keyIdentifier b = .data ↔ b.toNat / 8 % 4 = 0) ∧ (keyIdentifier b = .network ↔ b.toNat / 8 % 4 = 1) ∧
    (keyIdentifier b = .keyTransport ↔ b.toNat / 8 % 4 = 2) ∧ (keyIdentifier b = .keyLoad ↔ b.toNat / 8 % 4 = 3)) ∧
  (∀ (c : Config) (cid : Byte), cmdClass c cid = .known ↔ 1 ≤ cid.toNat ∧ cid.toNat ≤ c.cmdMaxLessOne.val + 1)

/-! ### Control words and the command identifier -/

/-- `DEC.FC` (41_bitfield.md R147): the reserved bits are dropped, and no value fails. -/
def Obligations.DecFcDropsReservedBits : Prop :=
  EncodedAs 0x40#8 .decFc ∧
  ∀ s : State, s.phase ≠ .failed →
    (s.cur.toNat + 2 ≤ s.len.toNat →
      exec .decFc s = .next ({ s with
        fc := BitVec.ofNat 16 (s.wire s.cur.toNat 2 % 0x4000)
        cur := BitVec.ofNat 16 (s.cur.toNat + 2) }.doneWith 0x40#8)) ∧
    (s.len.toNat - s.cur.toNat < 2 →
      exec .decFc s = .next (s.raised .insufficientBytes s.cur.toNat 0x40#8))

/-- `DEC.MC` (R149), `DEC.SC` (R151) and `DEC.CID` (42_nwk_frame.md R174) take one byte; the reserved bits of the
SecurityControl byte are dropped, and no value fails. -/
def Obligations.OneByteDecodesKeepTheByte : Prop :=
  EncodedAs 0x41#8 .decMc ∧ EncodedAs 0x60#8 .decSc ∧ EncodedAs 0x44#8 .decCid ∧
  ∀ s : State, s.phase ≠ .failed →
    (s.cur.toNat + 1 ≤ s.len.toNat →
      exec .decMc s = .next ({ s with
        mc := s.readByte .ib s.cur.toNat, cur := BitVec.ofNat 16 (s.cur.toNat + 1) }.doneWith 0x41#8) ∧
      exec .decSc s = .next ({ s with
        scr := BitVec.ofNat 8 ((s.readByte .ib s.cur.toNat).toNat % 0x40)
        cur := BitVec.ofNat 16 (s.cur.toNat + 1) }.doneWith 0x60#8) ∧
      exec .decCid s = .next ({ s with
        cid := s.readByte .ib s.cur.toNat, cur := BitVec.ofNat 16 (s.cur.toNat + 1) }.doneWith 0x44#8)) ∧
    (s.len.toNat - s.cur.toNat < 1 →
      exec .decMc s = .next (s.raised .insufficientBytes s.cur.toNat 0x41#8) ∧
      exec .decSc s = .next (s.raised .insufficientBytes s.cur.toNat 0x60#8) ∧
      exec .decCid s = .next (s.raised .insufficientBytes s.cur.toNat 0x44#8))

/-- `ENC.FC`, `ENC.MC`, `ENC.SC` (R148, R150, R152) and `ENC.CID` (42_nwk_frame.md R175) append their register. That
the bytes of `OB` above the appended ones are kept is the model's reading (log entry 5; U7 calls them unspecified). -/
def Obligations.ControlWordEncodesAppendTheRegister : Prop :=
  EncodedAs 0x50#8 .encFc ∧ EncodedAs 0x51#8 .encMc ∧ EncodedAs 0x70#8 .encSc ∧ EncodedAs 0x54#8 .encCid ∧
  ∀ s : State, s.phase ≠ .failed →
    EncodesFields .encFc [wireBytes 2 s.fc.toNat] s ∧ EncodesFields .encMc [wireBytes 1 s.mc.toNat] s ∧
    EncodesFields .encSc [wireBytes 1 s.scr.toNat] s ∧ EncodesFields .encCid [wireBytes 1 s.cid.toNat] s

/-- Round trip of the control words (R158). Encode first: a register value without reserved bits comes back. Decode
first: the bytes at the cursor come back without their reserved bits. -/
def Obligations.ControlWordRoundTrip : Prop :=
  ∀ s : State, s.phase ≠ .failed → s.olen = 0 →
    (s.fc.toNat ≤ 0x3FFF → 2 ≤ s.cfg.obCap → 2 ≤ s.cfg.ibCap →
      ∃ t u, exec .encFc s = .next t ∧ exec .decFc (hostAct (.load t.output) t) = .next u ∧
        u.phase = .done ∧ u.fc = s.fc) ∧
    (∃ t u, exec .encMc s = .next t ∧ exec .decMc (hostAct (.load t.output) t) = .next u ∧
      u.phase = .done ∧ u.mc = s.mc) ∧
    (s.scr.toNat ≤ 0x3F → ∃ t u, exec .encSc s = .next t ∧ exec .decSc (hostAct (.load t.output) t) = .next u ∧
      u.phase = .done ∧ u.scr = s.scr) ∧
    (s.cur.toNat + 2 ≤ s.len.toNat → 2 ≤ s.cfg.obCap →
      ∃ t u, exec .decFc s = .next t ∧ exec .encFc t = .next u ∧ u.phase = .done ∧ u.olen = 2 ∧
        u.readByte .ob 0 = s.readByte .ib s.cur.toNat ∧
        u.readByte .ob 1 = BitVec.ofNat 8 ((s.readByte .ib (s.cur.toNat + 1)).toNat % 0x40)) ∧
    (s.cur.toNat + 1 ≤ s.len.toNat →
      (∃ t u, exec .decMc s = .next t ∧ exec .encMc t = .next u ∧ u.phase = .done ∧ u.olen = 1 ∧
        u.readByte .ob 0 = s.readByte .ib s.cur.toNat) ∧
      (∃ t u, exec .decSc s = .next t ∧ exec .encSc t = .next u ∧ u.phase = .done ∧ u.olen = 1 ∧
        u.readByte .ob 0 = BitVec.ofNat 8 ((s.readByte .ib s.cur.toNat).toNat % 0x40)))

/-! ### Source-route subframe -/

/-- `DEC.SRS` (42_nwk_frame.md R170): count, index, and every remaining byte as the relay list; with no byte, one
byte, or too long a list it fails at that field. That the bytes of `RL` above the new `RLEN` are kept is the model's
reading (log entry 5; U7 calls them unspecified). -/
def Obligations.DecSrsTakesCountIndexAndRest : Prop :=
  EncodedAs 0x42#8 .decSrs ∧
  ∀ s : State, s.phase ≠ .failed →
    (s.cur.toNat + 2 ≤ s.len.toNat → s.len.toNat - s.cur.toNat - 2 ≤ s.cfg.relayCap →
      ∃ t, exec .decSrs s = .next t ∧
        t = { s with
          rcnt := s.readByte .ib s.cur.toNat
          ridx := s.readByte .ib (s.cur.toNat + 1)
          rl := t.rl
          rlen := BitVec.ofNat 16 (s.len.toNat - s.cur.toNat - 2)
          cur := s.len }.doneWith 0x42#8 ∧
        Stored .rl (s.scope (s.cur.toNat + 2) (s.len.toNat - s.cur.toNat - 2)) s t) ∧
    (s.len.toNat ≤ s.cur.toNat → exec .decSrs s = .next (s.raised .insufficientBytes s.cur.toNat 0x42#8)) ∧
    (s.len.toNat = s.cur.toNat + 1 →
      exec .decSrs s = .next (s.raised .insufficientBytes (s.cur.toNat + 1) 0x42#8)) ∧
    (s.cfg.relayCap + 2 < s.len.toNat - s.cur.toNat →
      exec .decSrs s = .next (s.raised .capacityExceeded (s.cur.toNat + 2) 0x42#8))

/-- `ENC.SRS` (R171). That the bytes of `OB` above the appended ones are kept is the model's reading (log entry 5; U7
calls them unspecified). -/
def Obligations.EncSrsAppendsCountIndexAndList : Prop :=
  EncodedAs 0x52#8 .encSrs ∧
  ∀ s : State, s.phase ≠ .failed → EncodesFields .encSrs s.subframeFields s

/-! ### Header -/

/-- `DEC.HDR` of a header without a source-route subframe (R172, R88): every field from its place on the wire, absent
ones 0, and nothing else changed. That `RL` is kept whole when `RLEN` becomes 0 is the model's reading (log entry 5;
U7 calls its bytes unspecified). -/
def Obligations.DecHdrReadsEveryField : Prop :=
  ∀ s : State, s.phase ≠ .failed → bit s.nextFc 10 = 0 →
    s.cur.toNat + headerLength s.nextFc ≤ s.len.toNat →
      exec .decHdr s = .next ((s.withPlainHeader s.cur.toNat s.nextFc).doneWith 0x43#8)

/-- `DEC.HDR` of a header with a source-route subframe (R172, R170): the relay list takes every byte up to `LEN`. That
the bytes of `RL` above the new `RLEN` are kept is the model's reading (log entry 5; U7 calls them unspecified). -/
def Obligations.DecHdrReadsSourceRoute : Prop :=
  ∀ s : State, s.phase ≠ .failed → bit s.nextFc 10 = 1 →
    s.cur.toNat + headerLength s.nextFc + 2 ≤ s.len.toNat →
    s.len.toNat - (s.cur.toNat + headerLength s.nextFc + 2) ≤ s.cfg.relayCap →
      ∃ t, exec .decHdr s = .next t ∧
        t = { (s.withRoutedHeader s.cur.toNat s.nextFc) with rl := t.rl }.doneWith 0x43#8 ∧
        Stored .rl (s.scope (s.cur.toNat + headerLength s.nextFc + 2)
          (s.len.toNat - (s.cur.toNat + headerLength s.nextFc + 2))) s t

/-- `DEC.HDR` and `DEC.FRM` fail at the first header field that cannot be decoded (R172, R177, R188,
60_exceptions.md R237): an integer field with `InsufficientBytes` at its start, the relay list with
`CapacityExceeded` at its start. -/
def Obligations.HeaderFailsAtTheFirstBadField : Prop :=
  ∀ (s : State) (i : Instr), i = .decHdr ∨ i = .decFrm → s.phase ≠ .failed →
    (∀ p, firstUnfit s.len.toNat s.cur.toNat (headerWidths s.nextFc) = some p →
      exec i s = .next (s.raised .insufficientBytes p i.opCode)) ∧
    (firstUnfit s.len.toNat s.cur.toNat (headerWidths s.nextFc) = none → bit s.nextFc 10 = 1 →
      s.cfg.relayCap < s.len.toNat - (s.cur.toNat + headerLength s.nextFc + 2) →
      exec i s = .next (s.raised .capacityExceeded (s.cur.toNat + headerLength s.nextFc + 2) i.opCode))

/-- `ENC.HDR` (R173): the present fields in wire order, presence decided by `FC` alone. That the bytes of `OB` above
the appended ones are kept is the model's reading (log entry 5; U7 calls them unspecified). -/
def Obligations.EncHdrAppendsThePresentFields : Prop :=
  EncodedAs 0x53#8 .encHdr ∧
  ∀ s : State, s.phase ≠ .failed → EncodesFields .encHdr s.headerFields s

/-- Clear flag, absent field (R189): after a successful `DEC.HDR` or `DEC.FRM` the register of every absent field is 0,
and without the source-route flag the header took exactly `8 + 8*FC[11] + 8*FC[12] + FC[8]` bytes (seen in `CUR` after
a header, and in `CUR`, `PLEN` and the scope after a frame). -/
def Obligations.ClearFlagMeansAbsentField : Prop :=
  ∀ (i : Instr) (s t : State), i = .decHdr ∨ i = .decFrm → s.phase ≠ .failed → exec i s = .next t → t.phase = .done →
    (bit t.fc 11 = 0 → t.dieee = 0) ∧ (bit t.fc 12 = 0 → t.sieee = 0) ∧ (bit t.fc 8 = 0 → t.mc = 0) ∧
    (bit t.fc 10 = 0 → t.rcnt = 0 ∧ t.ridx = 0 ∧ t.rlen = 0) ∧
    (bit t.fc 10 = 0 → (i = .decHdr ∨ 2 ≤ t.fc.toNat % 4) → t.cur.toNat = s.cur.toNat + headerLength t.fc) ∧
    (bit t.fc 10 = 0 → i = .decFrm → t.fc.toNat % 4 < 2 →
      s.cur.toNat + headerLength t.fc + t.fc.toNat % 4 + t.plen.toNat = s.len.toNat)

/-! ### Whole frames -/

/-- `DEC.FRM` of a Data frame without a source-route subframe, and its wire row (R177, R178): the header, then every
remaining byte as payload, `CID` 0. That a wire row is an instruction of its own, run under 0x45, is the model's
choice (log entry 6). That the bytes of `PL` above the new `PLEN` are kept is the model's reading (log entry 5; U7
calls them unspecified). That `RL` is kept whole when `RLEN` becomes 0 is the model's reading (log entry 5; U7 calls
its bytes unspecified). -/
def Obligations.DecFrmDataTakesThePayload : Prop :=
  ∀ s : State, s.phase ≠ .failed → s.nextFc.toNat % 4 = 0 → bit s.nextFc 10 = 0 →
    s.cur.toNat + headerLength s.nextFc ≤ s.len.toNat →
    (s.len.toNat - (s.cur.toNat + headerLength s.nextFc) ≤ s.cfg.payloadCap →
      ∃ t, exec .decFrm s = .next t ∧ exec (.nwkData (BitVec.ofNat 16 (s.nextFc.toNat % 0x4000))) s = .next t ∧
        t = { (s.withPlainHeader s.cur.toNat s.nextFc) with
          cid := 0
          plen := BitVec.ofNat 16 (s.len.toNat - (s.cur.toNat + headerLength s.nextFc))
          pl := t.pl
          cur := s.len }.doneWith 0x45#8 ∧
        Stored .pl (s.scope (s.cur.toNat + headerLength s.nextFc)
          (s.len.toNat - (s.cur.toNat + headerLength s.nextFc))) s t) ∧
    (s.cfg.payloadCap < s.len.toNat - (s.cur.toNat + headerLength s.nextFc) →
      exec .decFrm s = .next (s.raised .capacityExceeded (s.cur.toNat + headerLength s.nextFc) 0x45#8))

/-- `DEC.FRM` of a NwkCommand frame without a source-route subframe, and its wire row (R177, R179): the header, the
command identifier, then every remaining byte as payload. That a wire row is an instruction of its own, run under
0x45, is the model's choice (log entry 6). That the bytes of `PL` above the new `PLEN` are kept is the model's reading
(log entry 5; U7 calls them unspecified). That `RL` is kept whole when `RLEN` becomes 0 is the model's reading (log
entry 5; U7 calls its bytes unspecified). -/
def Obligations.DecFrmCommandTakesIdentifierAndPayload : Prop :=
  ∀ s : State, s.phase ≠ .failed → s.nextFc.toNat % 4 = 1 → bit s.nextFc 10 = 0 →
    s.cur.toNat + headerLength s.nextFc ≤ s.len.toNat →
    (s.cur.toNat + headerLength s.nextFc + 1 ≤ s.len.toNat →
      s.len.toNat - (s.cur.toNat + headerLength s.nextFc + 1) ≤ s.cfg.payloadCap →
      ∃ t, exec .decFrm s = .next t ∧ exec (.nwkCmd (BitVec.ofNat 16 (s.nextFc.toNat % 0x4000))) s = .next t ∧
        t = { (s.withPlainHeader s.cur.toNat s.nextFc) with
          cid := s.readByte .ib (s.cur.toNat + headerLength s.nextFc)
          plen := BitVec.ofNat 16 (s.len.toNat - (s.cur.toNat + headerLength s.nextFc + 1))
          pl := t.pl
          cur := s.len }.doneWith 0x45#8 ∧
        Stored .pl (s.scope (s.cur.toNat + headerLength s.nextFc + 1)
          (s.len.toNat - (s.cur.toNat + headerLength s.nextFc + 1))) s t) ∧
    (s.len.toNat = s.cur.toNat + headerLength s.nextFc →
      exec .decFrm s = .next (s.raised .insufficientBytes (s.cur.toNat + headerLength s.nextFc) 0x45#8)) ∧
    (s.cfg.payloadCap + 1 < s.len.toNat - (s.cur.toNat + headerLength s.nextFc) →
      exec .decFrm s = .next (s.raised .capacityExceeded (s.cur.toNat + headerLength s.nextFc + 1) 0x45#8))

/-- `DEC.FRM` of a Reserved or InterPan frame without a source-route subframe, and its wire row (R177, R180, R181):
the header only; what follows it stays unconsumed, and `CID` and `PLEN` become 0. That a wire row is an instruction of
its own, run under 0x45, is the model's choice (log entry 6). That `RL` is kept whole when `RLEN` becomes 0 is the
model's reading (log entry 5; U7 calls its bytes unspecified). -/
def Obligations.DecFrmHeaderOnlyFrames : Prop :=
  ∀ s : State, s.phase ≠ .failed → bit s.nextFc 10 = 0 →
    s.cur.toNat + headerLength s.nextFc ≤ s.len.toNat →
    (s.nextFc.toNat % 4 = 2 →
      exec .decFrm s =
        .next ({ (s.withPlainHeader s.cur.toNat s.nextFc) with cid := 0, plen := 0 }.doneWith 0x45#8) ∧
      exec (.nwkRsvd (BitVec.ofNat 16 (s.nextFc.toNat % 0x4000))) s =
        .next ({ (s.withPlainHeader s.cur.toNat s.nextFc) with cid := 0, plen := 0 }.doneWith 0x45#8)) ∧
    (s.nextFc.toNat % 4 = 3 →
      exec .decFrm s =
        .next ({ (s.withPlainHeader s.cur.toNat s.nextFc) with cid := 0, plen := 0 }.doneWith 0x45#8) ∧
      exec (.nwkInterPan (BitVec.ofNat 16 (s.nextFc.toNat % 0x4000))) s =
        .next ({ (s.withPlainHeader s.cur.toNat s.nextFc) with cid := 0, plen := 0 }.doneWith 0x45#8))

/-- A source-route subframe takes the rest of the frame (R192): with bytes up to a relay list that fits, a Data,
Reserved or InterPan frame decodes with `CUR` at `LEN` and an empty payload, and a NwkCommand frame fails with
`InsufficientBytes(LEN)`. That the bytes of `RL` above the new `RLEN` are kept is the model's reading (log entry 5; U7
calls them unspecified). That `PL` is kept whole when `PLEN` becomes 0 is stated for Reserved and InterPan (R180) and
is otherwise the model's reading (log entry 5). -/
def Obligations.SourceRouteTakesTheWholeFrame : Prop :=
  ∀ s : State, s.phase ≠ .failed → bit s.nextFc 10 = 1 →
    s.cur.toNat + headerLength s.nextFc + 2 ≤ s.len.toNat →
    s.len.toNat - (s.cur.toNat + headerLength s.nextFc + 2) ≤ s.cfg.relayCap →
    (s.nextFc.toNat % 4 = 1 → exec .decFrm s = .next (s.raised .insufficientBytes s.len.toNat 0x45#8)) ∧
    (s.nextFc.toNat % 4 ≠ 1 →
      ∃ t, exec .decFrm s = .next t ∧
        t = { (s.withRoutedHeader s.cur.toNat s.nextFc) with cid := 0, plen := 0, rl := t.rl }.doneWith 0x45#8 ∧
        Stored .rl (s.scope (s.cur.toNat + headerLength s.nextFc + 2)
          (s.len.toNat - (s.cur.toNat + headerLength s.nextFc + 2))) s t)

/-- `ENC.FRM` with its four arms (R182 to R186): the header's present fields, then the body of the frame type. That
the bytes of `OB` above the appended ones are kept is the model's reading (log entry 5; U7 calls them unspecified). -/
def Obligations.EncFrmAppendsHeaderAndBody : Prop :=
  EncodedAs 0x55#8 .encFrm ∧
  ∀ s : State, s.phase ≠ .failed → EncodesFields .encFrm s.frameFields s

/-- Round trip of a frame, encode first (R190): under the law's restriction, encoding into an empty output, loading
the bytes produced and decoding them gives the same frame value. -/
def Obligations.FrameRoundTrip : Prop :=
  ∀ s : State, s.Inv → s.phase ≠ .failed → s.olen = 0 →
    s.frameFields.flatten.length ≤ s.cfg.obCap → s.frameFields.flatten.length ≤ s.cfg.ibCap →
    (bit s.fc 10 = 0 ∨ 2 ≤ s.fc.toNat % 4 ∨ (s.fc.toNat % 4 = 0 ∧ s.plen = 0)) →
      ∃ t u, exec .encFrm s = .next t ∧ t.phase = .done ∧
        exec .decFrm (hostAct (.load t.output) t) = .next u ∧ u.phase = .done ∧ SameFrame s u

/-- Round trip of a frame, decode first (R191): a frame decoded from the start of `IB` and encoded into an empty output
gives the bytes that were consumed, with the two reserved bits of byte 1 cleared; a Data or NwkCommand frame consumed
them all. -/
def Obligations.DecodeThenEncodeReproducesTheBytes : Prop :=
  ∀ s t : State, s.phase ≠ .failed → s.cur = 0 → s.olen = 0 → s.len.toNat ≤ s.cfg.obCap →
    exec .decFrm s = .next t → t.phase = .done →
      ∃ u, exec .encFrm t = .next u ∧ u.phase = .done ∧ u.olen = t.cur ∧
        (t.fc.toNat % 4 < 2 → t.cur = s.len) ∧
        ∀ a, a < t.cur.toNat → u.readByte .ob a =
          if a = 1 then BitVec.ofNat 8 ((s.readByte .ib a).toNat % 0x40) else s.readByte .ib a

/-- `TXM` (R187): only `TXR` is written, from the discover-route field and the flags 8 and 11; a route with no meaning,
and Enable with multicast, give Unknown whatever the table. -/
def Obligations.TxmClassifies : Prop :=
  EncodedAs 0x46#8 .txm ∧
  ∀ s : State, s.phase ≠ .failed →
    exec .txm s = .next ({ s with
      txr := txmTable s.cfg (discoverRoute s.fc) (bit s.fc 8 == 1) (bit s.fc 11 == 1) }.doneWith 0x46#8) ∧
    (2 ≤ s.fc.toNat / 64 % 4 ∨ (s.fc.toNat / 64 % 4 = 1 ∧ bit s.fc 8 = 1) →
      exec .txm s = .next ({ s with txr := .unknown }.doneWith 0x46#8))

/-! ### Security auxiliary header -/

/-- `DEC.AUX` (43_security_aux.md R210): control byte, frame counter, then the optional fields, absent ones 0; too few
bytes fail at the first field that lacks them. -/
def Obligations.DecAuxReadsEveryField : Prop :=
  EncodedAs 0x61#8 .decAux ∧
  ∀ s : State, s.phase ≠ .failed →
    (firstUnfit s.len.toNat s.cur.toNat (auxWidths (s.readByte .ib s.cur.toNat)) = none →
      exec .decAux s = .next ({ s with
        scr := BitVec.ofNat 8 ((s.readByte .ib s.cur.toNat).toNat % 0x40)
        fcnt := BitVec.ofNat 32 (s.wire (s.cur.toNat + 1) 4)
        asrc := if (s.readByte .ib s.cur.toNat).toNat / 32 % 2 = 1
          then BitVec.ofNat 64 (s.wire (s.cur.toNat + 5) 8) else 0
        kseq := if (s.readByte .ib s.cur.toNat).toNat / 8 % 4 = 1
          then s.readByte .ib (s.cur.toNat + 5 + 8 * ((s.readByte .ib s.cur.toNat).toNat / 32 % 2)) else 0
        cur := BitVec.ofNat 16 (s.cur.toNat + (auxWidths (s.readByte .ib s.cur.toNat)).sum) }.doneWith 0x61#8)) ∧
    (∀ p, firstUnfit s.len.toNat s.cur.toNat (auxWidths (s.readByte .ib s.cur.toNat)) = some p →
      exec .decAux s = .next (s.raised .insufficientBytes p 0x61#8))

/-- `ENC.AUX` (R211). That the bytes of `OB` above the appended ones are kept is the model's reading (log entry 5; U7
calls them unspecified). -/
def Obligations.EncAuxAppendsThePresentFields : Prop :=
  EncodedAs 0x71#8 .encAux ∧
  ∀ s : State, s.phase ≠ .failed → EncodesFields .encAux s.auxFields s

/-- A composite decode is its parts in order (40_codec_primitives.md R130), for `DEC.AUX`: `DEC.SC`, `DEC.U32`, then
`DEC.U64` and `DEC.U8` for the fields that are present, give its register values and its cursor. -/
def Obligations.DecAuxIsItsPartsInOrder : Prop :=
  ∀ s d : State, s.phase ≠ .failed → exec .decAux s = .next d → d.phase = .done →
    ∃ a b c e, exec .decSc s = .next a ∧ exec .decU32 a = .next b ∧
      (a.scr.toNat / 32 % 2 = 1 → exec .decU64 b = .next c ∧ d.asrc = c.acc) ∧
      (a.scr.toNat / 32 % 2 ≠ 1 → c = b ∧ d.asrc = 0) ∧
      (a.scr.toNat / 8 % 4 = 1 → exec .decU8 c = .next e ∧ d.kseq = e.acc.setWidth 8) ∧
      (a.scr.toNat / 8 % 4 ≠ 1 → e = c ∧ d.kseq = 0) ∧
      d.scr = a.scr ∧ d.fcnt = b.acc.setWidth 32 ∧ d.cur = e.cur

/-- Round trip of an auxiliary header (R214). Encode first: no exception, and absent fields come back as 0; the premise
is the invariant that `SCR[7:6]` are 0 (10_state.md R47). Decode first: the bytes consumed come back, with bits 7:6 of
the first cleared. -/
def Obligations.AuxRoundTrip : Prop :=
  (∀ s : State, s.scr.toNat < 0x40 → s.phase ≠ .failed → s.olen = 0 →
    s.auxFields.flatten.length ≤ s.cfg.obCap → s.auxFields.flatten.length ≤ s.cfg.ibCap →
      ∃ t u, exec .encAux s = .next t ∧ exec .decAux (hostAct (.load t.output) t) = .next u ∧ u.phase = .done ∧
        u.scr = s.scr ∧ u.fcnt = s.fcnt ∧
        u.asrc = (if s.scr.toNat / 32 % 2 = 1 then s.asrc else 0) ∧
        u.kseq = (if s.scr.toNat / 8 % 4 = 1 then s.kseq else 0)) ∧
  (∀ s t : State, s.phase ≠ .failed → s.olen = 0 → exec .decAux s = .next t → t.phase = .done →
    t.cur.toNat - s.cur.toNat ≤ s.cfg.obCap →
      ∃ u, exec .encAux t = .next u ∧ u.phase = .done ∧ s.cur.toNat + u.olen.toNat = t.cur.toNat ∧
        ∀ a, a < u.olen.toNat → u.readByte .ob a =
          if a = 0 then BitVec.ofNat 8 ((s.readByte .ib s.cur.toNat).toNat % 0x40)
          else s.readByte .ib (s.cur.toNat + a))

/-! ### Host actions -/

/-- `LOAD` (44_control_and_host.md R224): the bytes go to `IB` from index 0, `LEN` is their number, `CUR` is 0, and
nothing else changes; too long a sequence is ignored. -/
def Obligations.LoadPlacesTheBytes : Prop :=
  ∀ (s : State) (b : List Byte) (rest : List HostAction), s.pending = .load b :: rest →
    (b.length ≤ s.cfg.ibCap →
      ∃ t, step s = .next t ∧
        t = { s with pending := rest, ib := t.ib, len := BitVec.ofNat 16 b.length, cur := 0 } ∧ Stored .ib b s t) ∧
    (s.cfg.ibCap < b.length → step s = .next { s with pending := rest })

/-- `SETLEN`, `SEEK` and `OCLR` (R225, R226): accepted under their conditions, otherwise without effect. `SET` of `LEN`,
`CUR` and `OLEN` is `SETLEN`, `SEEK` and `OCLR` (R227); that the value is truncated to 16 bits before it is checked is
the model's reading (log entry 8). -/
def Obligations.CursorWritesAreChecked : Prop :=
  (∀ (s : State) (n : Word16) (rest : List HostAction),
    (s.pending = .setLen n :: rest →
      step s = .next (if s.cur.toNat ≤ n.toNat ∧ n.toNat ≤ s.cfg.ibCap
        then { s with pending := rest, len := n } else { s with pending := rest })) ∧
    (s.pending = .seek n :: rest →
      step s = .next (if n.toNat ≤ s.len.toNat
        then { s with pending := rest, cur := n } else { s with pending := rest })) ∧
    (s.pending = .oclr :: rest → step s = .next { s with pending := rest, olen := 0 })) ∧
  (∀ (s : State) (v : Word64) (rest : List HostAction),
    (s.pending = .set 0x03#8 v :: rest →
      step s = step { s with pending := .setLen (BitVec.ofNat 16 v.toNat) :: rest }) ∧
    (s.pending = .set 0x04#8 v :: rest →
      step s = step { s with pending := .seek (BitVec.ofNat 16 v.toNat) :: rest }) ∧
    (s.pending = .set 0x05#8 v :: rest → step s = step { s with pending := .oclr :: rest }))

/-- `SETBUF` (R227): the bytes go to the buffer from index 0 with their number in its length register; too long a
sequence is ignored. A write of a single byte of `IB`, `PL` or `RL` (R51, R224) at an index below the capacity writes
that byte and nothing else, one of `OB` is ignored. That the bytes above the new length are kept is the model's reading
(log entry 5; U7 calls them unspecified), and so is that a single byte outside its buffer is ignored (log entry 11). -/
def Obligations.SetBufPlacesTheBytes : Prop :=
  (∀ (s : State) (b : List Byte) (rest : List HostAction),
    (s.pending = .setBuf .pl b :: rest → b.length ≤ s.cfg.payloadCap →
      ∃ t, step s = .next t ∧ t = { s with pending := rest, pl := t.pl, plen := BitVec.ofNat 16 b.length } ∧
        Stored .pl b s t) ∧
    (s.pending = .setBuf .rl b :: rest → b.length ≤ s.cfg.relayCap →
      ∃ t, step s = .next t ∧ t = { s with pending := rest, rl := t.rl, rlen := BitVec.ofNat 16 b.length } ∧
        Stored .rl b s t) ∧
    (s.pending = .setBuf .pl b :: rest → s.cfg.payloadCap < b.length → step s = .next { s with pending := rest }) ∧
    (s.pending = .setBuf .rl b :: rest → s.cfg.relayCap < b.length → step s = .next { s with pending := rest })) ∧
  (∀ (s : State) (sp : Space) (i : Nat) (v : Byte) (rest : List HostAction), s.pending = .setByte sp i v :: rest →
    (sp ≠ .ob → i < s.cfg.cap sp →
      ∃ t, step s = .next t ∧ t = { s with pending := rest, ib := t.ib, pl := t.pl, rl := t.rl } ∧
        t.readByte sp i = v ∧ ∀ sp' a, (sp', a) ≠ (sp, i) → t.readByte sp' a = s.readByte sp' a) ∧
    (sp = .ob ∨ s.cfg.cap sp ≤ i → step s = .next { s with pending := rest }))

/-- Host access by register number (44_control_and_host.md R227, R228, 10_state.md R20). A step on `SET` writes a
register truncated to its width, the reserved bits of `FC` (15:14) and `SCR` (7:6) dropped (R31, R40), and nothing
else; `PLEN` and `RLEN` are written iff the truncated value fits their buffer (log entry 8 for the order). A host read
changes nothing and returns the register's value, 0 for `OP` and for a number that does not exist, and the value of a
byte of any buffer (none outside it, log entry 11). That `SET` of a smaller `PLEN` or `RLEN` keeps `PL` and `RL` whole
is the model's reading (log entry 5; U7 calls the bytes above unspecified). That a register number has 8 bits is the
model's choice (log entry 13). -/
def Obligations.ReservedBitsOfWritesAreDropped : Prop :=
  (∀ (s : State) (v : Word64),
    (s.writeReg 0x10#8 v).readReg 0x10#8 = BitVec.ofNat 64 (v.toNat % 0x4000) ∧
    (s.writeReg 0x20#8 v).readReg 0x20#8 = BitVec.ofNat 64 (v.toNat % 0x40)) ∧
  (∀ (s t : State) (reg : Byte) (v : Word64) (rest : List HostAction), s.pending = .set reg v :: rest →
    (reg.toNat, t) ∈ State.written { s with pending := rest } v.toNat → step s = .next t) ∧
  (∀ (s : State) (v : Word64) (rest : List HostAction),
    (s.pending = .set 0x1C#8 v :: rest →
      step s = .next (if v.toNat % 65536 ≤ s.cfg.payloadCap
        then { s with pending := rest, plen := BitVec.ofNat 16 v.toNat } else { s with pending := rest })) ∧
    (s.pending = .set 0x1A#8 v :: rest →
      step s = .next (if v.toNat % 65536 ≤ s.cfg.relayCap
        then { s with pending := rest, rlen := BitVec.ofNat 16 v.toNat } else { s with pending := rest }))) ∧
  (∀ (s : State) (reg : Byte),
    (∀ x, (reg.toNat, x) ∈ s.registerValues → hostReply (.get reg) s = some (BitVec.ofNat 64 x)) ∧
    ((∀ x, (reg.toNat, x) ∉ s.registerValues) → hostReply (.get reg) s = some 0)) ∧
  (∀ (s : State) (sp : Space) (i : Nat),
    hostReply (.getByte sp i) s =
      if i < s.cfg.cap sp then some (BitVec.ofNat 64 (s.readByte sp i).toNat) else none) ∧
  (∀ (s : State) (a : HostAction) (rest : List HostAction),
    (∃ reg, a = .get reg) ∨ (∃ sp i, a = .getByte sp i) → s.pending = a :: rest →
      step s = .next { s with pending := rest }) ∧
  [Phase.idle, .done, .failed].map Phase.code = [0, 1, 2] ∧
  [ErrCode.noError, .insufficientBytes, .capacityExceeded, .malformedTag, .illegalOp, .badField].map ErrCode.code =
    [0, 1, 2, 3, 4, 5] ∧
  [TxKind.broadcast, .multicast, .unicast, .sourceRouted, .unknown].map txCode = [0, 1, 2, 3, 4]

/-- Writes that are refused (R227, R51, 10_state.md R20): `STATUS`, `EPOS`, `TXR` and numbers that do not exist ignore
them, a length above its buffer's capacity is ignored, and no host action but `RESET` writes the output buffer. That a
register number has 8 bits is the model's choice (log entry 13). -/
def Obligations.RefusedWritesHaveNoEffect : Prop :=
  (∀ (s : State) (reg : Byte) (v : Word64),
    reg.toNat ∈ [0x01, 0x02, 0x06, 0x07, 0x0C, 0x0D, 0x0E, 0x0F, 0x1D, 0x1E, 0x1F] ∨ 0x24 ≤ reg.toNat →
      s.writeReg reg v = s) ∧
  (∀ (s : State) (v : Word64), s.cfg.payloadCap < (v.setWidth 16).toNat → s.writeReg 0x1C#8 v = s) ∧
  (∀ (s : State) (v : Word64), s.cfg.relayCap < (v.setWidth 16).toNat → s.writeReg 0x1A#8 v = s) ∧
  (∀ (s : State) (a : HostAction), a ≠ .reset → (hostAct a s).ob = s.ob)

/-- `RESET` (70_reset_and_hazards.md R260, R261): from every state, `Failed` included, the registers take their reset
values, no buffer byte holds a value, and the parameters stay. The free bytes of the new contents are chosen anew
(log entry 4). -/
def Obligations.ResetActionRestoresTheResetState : Prop :=
  ∀ (s : State) (rest : List HostAction), s.pending = .reset :: rest →
    step s = .next { State.reset with cfg := s.cfg, pending := rest, epoch := s.epoch + 1 }

/-- Operations write only the bytes their rules name (10_state.md R49, the table of 20_memory.md R60): after an
instruction a byte of a buffer is as it was, holding no value if it held none, unless the instruction completed and is
an encode and the byte lies in the appended output, or it is `DEC.BUF` or decodes a frame with a payload and the byte
lies below the new `PLEN`, or it decodes a source-route subframe and the byte lies below the new `RLEN`. That a byte
above a shortened length is as it was is the model's reading (log entry 5; U7 calls it unspecified); the wire rows are
arms of `DEC.FRM` (log entry 6). -/
def Obligations.OperationsWriteOnlyTheirOwnBytes : Prop :=
  ∀ (i : Instr) (s t : State) (sp : Space) (a : Nat), exec i s = .next t →
    Memory.get? (t.mem sp) a = Memory.get? (s.mem sp) a ∨
    (t.phase = .done ∧ sp = .ob ∧
      i ∈ [Instr.encU8, .encU16, .encU32, .encU64, .encBuf, .encFc, .encMc, .encSrs, .encHdr, .encCid, .encFrm, .encSc,
        .encAux] ∧ s.olen.toNat ≤ a ∧ a < t.olen.toNat) ∨
    (t.phase = .done ∧ sp = .pl ∧
      (i = .decBuf ∨ i = .decFrm ∨ ∃ fc, i = .nwkData fc ∨ i = .nwkCmd fc) ∧ a < t.plen.toNat) ∨
    (t.phase = .done ∧ sp = .rl ∧
      (i = .decSrs ∨ i = .decHdr ∨ i = .decFrm ∨
        ∃ fc, i = .nwkData fc ∨ i = .nwkCmd fc ∨ i = .nwkRsvd fc ∨ i = .nwkInterPan fc) ∧ a < t.rlen.toNat)
end

