-- ==== Sys2Proof/Laws/Bytes.lean ====
section
/-! SUPPORT. Byte order: `leNat` and `leBytes` are inverse to each other (00_scope.md R12). -/

namespace Sys2Proof

@[simp] theorem leBytes_length (n v : Nat) : (leBytes n v).length = n := by
  induction n generalizing v with
  | zero => rfl
  | succ n ih => simp [leBytes, ih]

theorem leBytes_getElem (n v i : Nat) (h : i < (leBytes n v).length) :
    (leBytes n v)[i] = BitVec.ofNat 8 (v / 256 ^ i) := by
  induction n generalizing v i with
  | zero => simp [leBytes] at h
  | succ n ih =>
    cases i with
    | zero => simp [leBytes]
    | succ i => simp [leBytes, ih, Nat.div_div_eq_div_mul, pow_succ, Nat.mul_comm]

theorem leNat_leBytes (n v : Nat) : leNat (leBytes n v) = v % 256 ^ n := by
  induction n generalizing v with
  | zero => simp [leBytes, leNat, Nat.mod_one]
  | succ n ih =>
    rw [leBytes, leNat, ih, BitVec.toNat_ofNat, show (2 : Nat) ^ 8 = 256 from rfl, pow_succ,
      Nat.mul_comm (256 ^ n) 256, Nat.mod_mul]

theorem leNat_lt (b : List Byte) : leNat b < 256 ^ b.length := by
  induction b with
  | nil => simp [leNat]
  | cons x xs ih =>
    have hx := x.isLt
    simp only [leNat, List.length_cons, pow_succ]
    omega

theorem leBytes_leNat (b : List Byte) : leBytes b.length (leNat b) = b := by
  induction b with
  | nil => rfl
  | cons x xs ih =>
    have hx := x.isLt
    have h1 : (x.toNat + 256 * leNat xs) / 256 = leNat xs := by omega
    simp only [List.length_cons, leBytes, leNat, h1, ih]
    congr 1
    apply BitVec.eq_of_toNat_eq
    rw [BitVec.toNat_ofNat]
    omega

theorem leNat_eq_sum (b : List Byte) :
    leNat b = ∑ i ∈ Finset.range b.length, (b.getD i 0).toNat * 256 ^ i := by
  induction b with
  | nil => simp [leNat]
  | cons x xs ih =>
    rw [List.length_cons, Finset.sum_range_succ', leNat, ih, Finset.mul_sum]
    simp only [List.getD_cons_zero, List.getD_cons_succ, pow_zero, mul_one, pow_succ]
    rw [add_comm]
    congr 1
    exact Finset.sum_congr rfl (fun i _ => by ring)

@[simp] theorem dropReservedFc_toNat (w : Word16) : (dropReservedFc w).toNat = w.toNat % 0x4000 := by
  rw [dropReservedFc, BitVec.toNat_and]
  exact Nat.and_two_pow_sub_one_eq_mod w.toNat 14

@[simp] theorem dropReservedSc_toNat (b : Byte) : (dropReservedSc b).toNat = b.toNat % 0x40 := by
  rw [dropReservedSc, BitVec.toNat_and]
  exact Nat.and_two_pow_sub_one_eq_mod b.toNat 6

theorem dropReservedFc_eq (w : Word16) : dropReservedFc w = BitVec.ofNat 16 (w.toNat % 0x4000) := by
  apply BitVec.eq_of_toNat_eq
  rw [dropReservedFc_toNat, BitVec.toNat_ofNat]
  omega

theorem dropReservedSc_eq (b : Byte) : dropReservedSc b = BitVec.ofNat 8 (b.toNat % 0x40) := by
  apply BitVec.eq_of_toNat_eq
  rw [dropReservedSc_toNat, BitVec.toNat_ofNat]
  omega

@[simp] theorem dropReservedFc_idem (w : Word16) : dropReservedFc (dropReservedFc w) = dropReservedFc w := by
  apply BitVec.eq_of_toNat_eq
  simp

end Sys2Proof
end

