-- ==== Sys2Proof/Laws/Memory.lean ====
section
/-! SUPPORT. The laws of one address space: a read after a write, that a write leaves every other index alone, and that
every write keeps the canonical form and the bounds. -/

namespace Sys2Proof.Machine

theorem Memory.get?_set (m : Memory) (x : Nat) (v : Byte) (y : Nat) :
    Memory.get? (Memory.set m x v) y = if y = x then some v else Memory.get? m y := by
  induction m with
  | nil => simp [Memory.set, Memory.get?, eq_comm]
  | cons p m ih =>
    obtain ⟨a, b⟩ := p
    by_cases h1 : x < a
    · by_cases h2 : y = x
      · subst h2; simp [Memory.set, Memory.get?, h1]
      · have h3 : ¬ x = y := fun h => h2 h.symm
        simp [Memory.set, Memory.get?, h1, h2, h3]
    · by_cases h2 : x = a
      · subst h2
        by_cases h3 : y = x
        · subst h3; simp [Memory.set, Memory.get?]
        · have h4 : ¬ x = y := fun h => h3 h.symm
          simp [Memory.set, Memory.get?, h3, h4]
      · by_cases h3 : a = y
        · subst h3
          have h4 : ¬ a = x := fun h => h2 h.symm
          simp [Memory.set, Memory.get?, h1, h2, h4]
        · simp [Memory.set, Memory.get?, h1, h2, h3, ih]

@[simp] theorem Memory.get?_set_self (m : Memory) (x : Nat) (v : Byte) :
    Memory.get? (Memory.set m x v) x = some v := by
  simp [Memory.get?_set]

theorem Memory.get?_set_ne (m : Memory) {x y : Nat} (v : Byte) (h : y ≠ x) :
    Memory.get? (Memory.set m x v) y = Memory.get? m y := by
  simp [Memory.get?_set, h]

theorem Memory.get?_setSeq_outside (m : Memory) (x : Nat) (b : List Byte) (y : Nat)
    (h : y < x ∨ x + b.length ≤ y) : Memory.get? (Memory.setSeq m x b) y = Memory.get? m y := by
  induction b generalizing m x with
  | nil => rfl
  | cons v bs ih =>
    rw [List.length_cons] at h
    rw [Memory.setSeq, ih _ _ (by omega), Memory.get?_set_ne _ _ (by omega)]

theorem Memory.get?_setSeq_inside (m : Memory) (x : Nat) (b : List Byte) (i : Nat) (h : i < b.length) :
    Memory.get? (Memory.setSeq m x b) (x + i) = some b[i] := by
  induction b generalizing m x i with
  | nil => simp at h
  | cons v bs ih =>
    cases i with
    | zero =>
      rw [Memory.setSeq, Memory.get?_setSeq_outside _ _ _ _ (by omega)]
      simp
    | succ i =>
      have h' : i < bs.length := by simpa using h
      have := ih (Memory.set m x v) (x + 1) i h'
      rw [Memory.setSeq, show x + (i + 1) = x + 1 + i by omega, this]
      simp

theorem Memory.mem_set {m : Memory} {x : Nat} {v : Byte} {p : Host.Cell} (h : p ∈ Memory.set m x v) :
    p = (x, v) ∨ p ∈ m := by
  induction m with
  | nil => exact .inl (by simpa [Memory.set] using h)
  | cons q m ih =>
    obtain ⟨a, b⟩ := q
    by_cases h1 : x < a
    · simpa [Memory.set, h1] using h
    · by_cases h2 : x = a
      · simp only [Memory.set, if_neg h1, if_pos h2, List.mem_cons] at h
        rcases h with h | h
        · exact .inl h
        · exact .inr (List.mem_cons_of_mem _ h)
      · simp only [Memory.set, if_neg h1, if_neg h2, List.mem_cons] at h
        rcases h with h | h
        · exact .inr (by simp [h])
        · rcases ih h with h | h
          · exact .inl h
          · exact .inr (List.mem_cons_of_mem _ h)

/-- A write of one byte keeps the canonical form. -/
theorem Memory.wf_set {m : Memory} (x : Nat) (v : Byte) (h : Memory.wf m = true) :
    Memory.wf (Memory.set m x v) = true := by
  simp only [Memory.wf, decide_eq_true_eq] at h ⊢
  induction m with
  | nil => simp [Memory.set]
  | cons q m ih =>
    obtain ⟨a, b⟩ := q
    rw [List.pairwise_cons] at h
    by_cases h1 : x < a
    · simp only [Memory.set, if_pos h1, List.pairwise_cons, List.mem_cons]
      refine ⟨?_, h⟩
      rintro p (rfl | hp)
      · exact h1
      · exact h1.trans (h.1 p hp)
    · by_cases h2 : x = a
      · subst h2
        simp only [Memory.set, lt_irrefl, if_false, if_true, List.pairwise_cons]
        exact h
      · simp only [Memory.set, if_neg h1, if_neg h2, List.pairwise_cons]
        refine ⟨fun p hp => ?_, ih h.2⟩
        rcases Memory.mem_set hp with rfl | hp
        · show a < x
          omega
        · exact h.1 p hp

/-- A write of a sequence keeps the canonical form. -/
theorem Memory.wf_setSeq {m : Memory} (x : Nat) (b : List Byte) (h : Memory.wf m = true) :
    Memory.wf (Memory.setSeq m x b) = true := by
  induction b generalizing m x with
  | nil => exact h
  | cons v bs ih => exact ih _ (Memory.wf_set x v h)

/-- A write inside a space keeps every listed index inside it. -/
theorem Memory.within_set {m : Memory} {c : Nat} (x : Nat) (v : Byte) (h : Memory.within m c = true) (hx : x < c) :
    Memory.within (Memory.set m x v) c = true := by
  simp only [Memory.within, List.all_eq_true, decide_eq_true_eq] at h ⊢
  intro p hp
  rcases Memory.mem_set hp with rfl | hp
  · exact hx
  · exact h p hp

/-- A write of a sequence inside a space keeps every listed index inside it. -/
theorem Memory.within_setSeq {m : Memory} {c : Nat} (x : Nat) (b : List Byte) (h : Memory.within m c = true)
    (hx : x + b.length ≤ c) : Memory.within (Memory.setSeq m x b) c = true := by
  induction b generalizing m x with
  | nil => exact h
  | cons v bs ih =>
    rw [List.length_cons] at hx
    exact ih _ (Memory.within_set x v h (by omega)) (by omega)

end Sys2Proof.Machine
end

