-- ==== Sys2Proof/Laws/State.lean ====
section
/-! SUPPORT. What each named update of the state does to each field, one lemma per field per update. -/

namespace Sys2Proof.Machine

/-! ### withPending -/

@[simp] theorem State.withPending_cfg (s : State) (rest : List HostAction) : (s.withPending rest).cfg = s.cfg := rfl
@[simp] theorem State.withPending_pending (s : State) (rest : List HostAction) : (s.withPending rest).pending = rest := rfl
@[simp] theorem State.withPending_epoch (s : State) (rest : List HostAction) : (s.withPending rest).epoch = s.epoch := rfl
@[simp] theorem State.withPending_phase (s : State) (rest : List HostAction) : (s.withPending rest).phase = s.phase := rfl
@[simp] theorem State.withPending_err (s : State) (rest : List HostAction) : (s.withPending rest).err = s.err := rfl
@[simp] theorem State.withPending_lop (s : State) (rest : List HostAction) : (s.withPending rest).lop = s.lop := rfl
@[simp] theorem State.withPending_epos (s : State) (rest : List HostAction) : (s.withPending rest).epos = s.epos := rfl
@[simp] theorem State.withPending_len (s : State) (rest : List HostAction) : (s.withPending rest).len = s.len := rfl
@[simp] theorem State.withPending_cur (s : State) (rest : List HostAction) : (s.withPending rest).cur = s.cur := rfl
@[simp] theorem State.withPending_olen (s : State) (rest : List HostAction) : (s.withPending rest).olen = s.olen := rfl
@[simp] theorem State.withPending_acc (s : State) (rest : List HostAction) : (s.withPending rest).acc = s.acc := rfl
@[simp] theorem State.withPending_foff (s : State) (rest : List HostAction) : (s.withPending rest).foff = s.foff := rfl
@[simp] theorem State.withPending_fwid (s : State) (rest : List HostAction) : (s.withPending rest).fwid = s.fwid := rfl
@[simp] theorem State.withPending_fval (s : State) (rest : List HostAction) : (s.withPending rest).fval = s.fval := rfl
@[simp] theorem State.withPending_txr (s : State) (rest : List HostAction) : (s.withPending rest).txr = s.txr := rfl
@[simp] theorem State.withPending_fc (s : State) (rest : List HostAction) : (s.withPending rest).fc = s.fc := rfl
@[simp] theorem State.withPending_dst (s : State) (rest : List HostAction) : (s.withPending rest).dst = s.dst := rfl
@[simp] theorem State.withPending_src (s : State) (rest : List HostAction) : (s.withPending rest).src = s.src := rfl
@[simp] theorem State.withPending_radius (s : State) (rest : List HostAction) : (s.withPending rest).radius = s.radius := rfl
@[simp] theorem State.withPending_seq (s : State) (rest : List HostAction) : (s.withPending rest).seq = s.seq := rfl
@[simp] theorem State.withPending_dieee (s : State) (rest : List HostAction) : (s.withPending rest).dieee = s.dieee := rfl
@[simp] theorem State.withPending_sieee (s : State) (rest : List HostAction) : (s.withPending rest).sieee = s.sieee := rfl
@[simp] theorem State.withPending_mc (s : State) (rest : List HostAction) : (s.withPending rest).mc = s.mc := rfl
@[simp] theorem State.withPending_rcnt (s : State) (rest : List HostAction) : (s.withPending rest).rcnt = s.rcnt := rfl
@[simp] theorem State.withPending_ridx (s : State) (rest : List HostAction) : (s.withPending rest).ridx = s.ridx := rfl
@[simp] theorem State.withPending_rlen (s : State) (rest : List HostAction) : (s.withPending rest).rlen = s.rlen := rfl
@[simp] theorem State.withPending_cid (s : State) (rest : List HostAction) : (s.withPending rest).cid = s.cid := rfl
@[simp] theorem State.withPending_plen (s : State) (rest : List HostAction) : (s.withPending rest).plen = s.plen := rfl
@[simp] theorem State.withPending_scr (s : State) (rest : List HostAction) : (s.withPending rest).scr = s.scr := rfl
@[simp] theorem State.withPending_fcnt (s : State) (rest : List HostAction) : (s.withPending rest).fcnt = s.fcnt := rfl
@[simp] theorem State.withPending_asrc (s : State) (rest : List HostAction) : (s.withPending rest).asrc = s.asrc := rfl
@[simp] theorem State.withPending_kseq (s : State) (rest : List HostAction) : (s.withPending rest).kseq = s.kseq := rfl
@[simp] theorem State.withPending_ib (s : State) (rest : List HostAction) : (s.withPending rest).ib = s.ib := rfl
@[simp] theorem State.withPending_ob (s : State) (rest : List HostAction) : (s.withPending rest).ob = s.ob := rfl
@[simp] theorem State.withPending_pl (s : State) (rest : List HostAction) : (s.withPending rest).pl = s.pl := rfl
@[simp] theorem State.withPending_rl (s : State) (rest : List HostAction) : (s.withPending rest).rl = s.rl := rfl

/-! ### setFc -/

@[simp] theorem State.setFc_cfg (s : State) (w : Word16) : (s.setFc w).cfg = s.cfg := rfl
@[simp] theorem State.setFc_pending (s : State) (w : Word16) : (s.setFc w).pending = s.pending := rfl
@[simp] theorem State.setFc_epoch (s : State) (w : Word16) : (s.setFc w).epoch = s.epoch := rfl
@[simp] theorem State.setFc_phase (s : State) (w : Word16) : (s.setFc w).phase = s.phase := rfl
@[simp] theorem State.setFc_err (s : State) (w : Word16) : (s.setFc w).err = s.err := rfl
@[simp] theorem State.setFc_lop (s : State) (w : Word16) : (s.setFc w).lop = s.lop := rfl
@[simp] theorem State.setFc_epos (s : State) (w : Word16) : (s.setFc w).epos = s.epos := rfl
@[simp] theorem State.setFc_len (s : State) (w : Word16) : (s.setFc w).len = s.len := rfl
@[simp] theorem State.setFc_cur (s : State) (w : Word16) : (s.setFc w).cur = s.cur := rfl
@[simp] theorem State.setFc_olen (s : State) (w : Word16) : (s.setFc w).olen = s.olen := rfl
@[simp] theorem State.setFc_acc (s : State) (w : Word16) : (s.setFc w).acc = s.acc := rfl
@[simp] theorem State.setFc_foff (s : State) (w : Word16) : (s.setFc w).foff = s.foff := rfl
@[simp] theorem State.setFc_fwid (s : State) (w : Word16) : (s.setFc w).fwid = s.fwid := rfl
@[simp] theorem State.setFc_fval (s : State) (w : Word16) : (s.setFc w).fval = s.fval := rfl
@[simp] theorem State.setFc_txr (s : State) (w : Word16) : (s.setFc w).txr = s.txr := rfl
@[simp] theorem State.setFc_fc (s : State) (w : Word16) : (s.setFc w).fc = dropReservedFc w := rfl
@[simp] theorem State.setFc_dst (s : State) (w : Word16) : (s.setFc w).dst = s.dst := rfl
@[simp] theorem State.setFc_src (s : State) (w : Word16) : (s.setFc w).src = s.src := rfl
@[simp] theorem State.setFc_radius (s : State) (w : Word16) : (s.setFc w).radius = s.radius := rfl
@[simp] theorem State.setFc_seq (s : State) (w : Word16) : (s.setFc w).seq = s.seq := rfl
@[simp] theorem State.setFc_dieee (s : State) (w : Word16) : (s.setFc w).dieee = s.dieee := rfl
@[simp] theorem State.setFc_sieee (s : State) (w : Word16) : (s.setFc w).sieee = s.sieee := rfl
@[simp] theorem State.setFc_mc (s : State) (w : Word16) : (s.setFc w).mc = s.mc := rfl
@[simp] theorem State.setFc_rcnt (s : State) (w : Word16) : (s.setFc w).rcnt = s.rcnt := rfl
@[simp] theorem State.setFc_ridx (s : State) (w : Word16) : (s.setFc w).ridx = s.ridx := rfl
@[simp] theorem State.setFc_rlen (s : State) (w : Word16) : (s.setFc w).rlen = s.rlen := rfl
@[simp] theorem State.setFc_cid (s : State) (w : Word16) : (s.setFc w).cid = s.cid := rfl
@[simp] theorem State.setFc_plen (s : State) (w : Word16) : (s.setFc w).plen = s.plen := rfl
@[simp] theorem State.setFc_scr (s : State) (w : Word16) : (s.setFc w).scr = s.scr := rfl
@[simp] theorem State.setFc_fcnt (s : State) (w : Word16) : (s.setFc w).fcnt = s.fcnt := rfl
@[simp] theorem State.setFc_asrc (s : State) (w : Word16) : (s.setFc w).asrc = s.asrc := rfl
@[simp] theorem State.setFc_kseq (s : State) (w : Word16) : (s.setFc w).kseq = s.kseq := rfl
@[simp] theorem State.setFc_ib (s : State) (w : Word16) : (s.setFc w).ib = s.ib := rfl
@[simp] theorem State.setFc_ob (s : State) (w : Word16) : (s.setFc w).ob = s.ob := rfl
@[simp] theorem State.setFc_pl (s : State) (w : Word16) : (s.setFc w).pl = s.pl := rfl
@[simp] theorem State.setFc_rl (s : State) (w : Word16) : (s.setFc w).rl = s.rl := rfl

/-! ### setScr -/

@[simp] theorem State.setScr_cfg (s : State) (b : Byte) : (s.setScr b).cfg = s.cfg := rfl
@[simp] theorem State.setScr_pending (s : State) (b : Byte) : (s.setScr b).pending = s.pending := rfl
@[simp] theorem State.setScr_epoch (s : State) (b : Byte) : (s.setScr b).epoch = s.epoch := rfl
@[simp] theorem State.setScr_phase (s : State) (b : Byte) : (s.setScr b).phase = s.phase := rfl
@[simp] theorem State.setScr_err (s : State) (b : Byte) : (s.setScr b).err = s.err := rfl
@[simp] theorem State.setScr_lop (s : State) (b : Byte) : (s.setScr b).lop = s.lop := rfl
@[simp] theorem State.setScr_epos (s : State) (b : Byte) : (s.setScr b).epos = s.epos := rfl
@[simp] theorem State.setScr_len (s : State) (b : Byte) : (s.setScr b).len = s.len := rfl
@[simp] theorem State.setScr_cur (s : State) (b : Byte) : (s.setScr b).cur = s.cur := rfl
@[simp] theorem State.setScr_olen (s : State) (b : Byte) : (s.setScr b).olen = s.olen := rfl
@[simp] theorem State.setScr_acc (s : State) (b : Byte) : (s.setScr b).acc = s.acc := rfl
@[simp] theorem State.setScr_foff (s : State) (b : Byte) : (s.setScr b).foff = s.foff := rfl
@[simp] theorem State.setScr_fwid (s : State) (b : Byte) : (s.setScr b).fwid = s.fwid := rfl
@[simp] theorem State.setScr_fval (s : State) (b : Byte) : (s.setScr b).fval = s.fval := rfl
@[simp] theorem State.setScr_txr (s : State) (b : Byte) : (s.setScr b).txr = s.txr := rfl
@[simp] theorem State.setScr_fc (s : State) (b : Byte) : (s.setScr b).fc = s.fc := rfl
@[simp] theorem State.setScr_dst (s : State) (b : Byte) : (s.setScr b).dst = s.dst := rfl
@[simp] theorem State.setScr_src (s : State) (b : Byte) : (s.setScr b).src = s.src := rfl
@[simp] theorem State.setScr_radius (s : State) (b : Byte) : (s.setScr b).radius = s.radius := rfl
@[simp] theorem State.setScr_seq (s : State) (b : Byte) : (s.setScr b).seq = s.seq := rfl
@[simp] theorem State.setScr_dieee (s : State) (b : Byte) : (s.setScr b).dieee = s.dieee := rfl
@[simp] theorem State.setScr_sieee (s : State) (b : Byte) : (s.setScr b).sieee = s.sieee := rfl
@[simp] theorem State.setScr_mc (s : State) (b : Byte) : (s.setScr b).mc = s.mc := rfl
@[simp] theorem State.setScr_rcnt (s : State) (b : Byte) : (s.setScr b).rcnt = s.rcnt := rfl
@[simp] theorem State.setScr_ridx (s : State) (b : Byte) : (s.setScr b).ridx = s.ridx := rfl
@[simp] theorem State.setScr_rlen (s : State) (b : Byte) : (s.setScr b).rlen = s.rlen := rfl
@[simp] theorem State.setScr_cid (s : State) (b : Byte) : (s.setScr b).cid = s.cid := rfl
@[simp] theorem State.setScr_plen (s : State) (b : Byte) : (s.setScr b).plen = s.plen := rfl
@[simp] theorem State.setScr_scr (s : State) (b : Byte) : (s.setScr b).scr = dropReservedSc b := rfl
@[simp] theorem State.setScr_fcnt (s : State) (b : Byte) : (s.setScr b).fcnt = s.fcnt := rfl
@[simp] theorem State.setScr_asrc (s : State) (b : Byte) : (s.setScr b).asrc = s.asrc := rfl
@[simp] theorem State.setScr_kseq (s : State) (b : Byte) : (s.setScr b).kseq = s.kseq := rfl
@[simp] theorem State.setScr_ib (s : State) (b : Byte) : (s.setScr b).ib = s.ib := rfl
@[simp] theorem State.setScr_ob (s : State) (b : Byte) : (s.setScr b).ob = s.ob := rfl
@[simp] theorem State.setScr_pl (s : State) (b : Byte) : (s.setScr b).pl = s.pl := rfl
@[simp] theorem State.setScr_rl (s : State) (b : Byte) : (s.setScr b).rl = s.rl := rfl

/-! ### setPayload -/

@[simp] theorem State.setPayload_cfg (s : State) (p : List Byte) : (s.setPayload p).cfg = s.cfg := rfl
@[simp] theorem State.setPayload_pending (s : State) (p : List Byte) : (s.setPayload p).pending = s.pending := rfl
@[simp] theorem State.setPayload_epoch (s : State) (p : List Byte) : (s.setPayload p).epoch = s.epoch := rfl
@[simp] theorem State.setPayload_phase (s : State) (p : List Byte) : (s.setPayload p).phase = s.phase := rfl
@[simp] theorem State.setPayload_err (s : State) (p : List Byte) : (s.setPayload p).err = s.err := rfl
@[simp] theorem State.setPayload_lop (s : State) (p : List Byte) : (s.setPayload p).lop = s.lop := rfl
@[simp] theorem State.setPayload_epos (s : State) (p : List Byte) : (s.setPayload p).epos = s.epos := rfl
@[simp] theorem State.setPayload_len (s : State) (p : List Byte) : (s.setPayload p).len = s.len := rfl
@[simp] theorem State.setPayload_cur (s : State) (p : List Byte) : (s.setPayload p).cur = s.cur := rfl
@[simp] theorem State.setPayload_olen (s : State) (p : List Byte) : (s.setPayload p).olen = s.olen := rfl
@[simp] theorem State.setPayload_acc (s : State) (p : List Byte) : (s.setPayload p).acc = s.acc := rfl
@[simp] theorem State.setPayload_foff (s : State) (p : List Byte) : (s.setPayload p).foff = s.foff := rfl
@[simp] theorem State.setPayload_fwid (s : State) (p : List Byte) : (s.setPayload p).fwid = s.fwid := rfl
@[simp] theorem State.setPayload_fval (s : State) (p : List Byte) : (s.setPayload p).fval = s.fval := rfl
@[simp] theorem State.setPayload_txr (s : State) (p : List Byte) : (s.setPayload p).txr = s.txr := rfl
@[simp] theorem State.setPayload_fc (s : State) (p : List Byte) : (s.setPayload p).fc = s.fc := rfl
@[simp] theorem State.setPayload_dst (s : State) (p : List Byte) : (s.setPayload p).dst = s.dst := rfl
@[simp] theorem State.setPayload_src (s : State) (p : List Byte) : (s.setPayload p).src = s.src := rfl
@[simp] theorem State.setPayload_radius (s : State) (p : List Byte) : (s.setPayload p).radius = s.radius := rfl
@[simp] theorem State.setPayload_seq (s : State) (p : List Byte) : (s.setPayload p).seq = s.seq := rfl
@[simp] theorem State.setPayload_dieee (s : State) (p : List Byte) : (s.setPayload p).dieee = s.dieee := rfl
@[simp] theorem State.setPayload_sieee (s : State) (p : List Byte) : (s.setPayload p).sieee = s.sieee := rfl
@[simp] theorem State.setPayload_mc (s : State) (p : List Byte) : (s.setPayload p).mc = s.mc := rfl
@[simp] theorem State.setPayload_rcnt (s : State) (p : List Byte) : (s.setPayload p).rcnt = s.rcnt := rfl
@[simp] theorem State.setPayload_ridx (s : State) (p : List Byte) : (s.setPayload p).ridx = s.ridx := rfl
@[simp] theorem State.setPayload_rlen (s : State) (p : List Byte) : (s.setPayload p).rlen = s.rlen := rfl
@[simp] theorem State.setPayload_cid (s : State) (p : List Byte) : (s.setPayload p).cid = s.cid := rfl
@[simp] theorem State.setPayload_plen (s : State) (p : List Byte) : (s.setPayload p).plen = BitVec.ofNat 16 p.length := rfl
@[simp] theorem State.setPayload_scr (s : State) (p : List Byte) : (s.setPayload p).scr = s.scr := rfl
@[simp] theorem State.setPayload_fcnt (s : State) (p : List Byte) : (s.setPayload p).fcnt = s.fcnt := rfl
@[simp] theorem State.setPayload_asrc (s : State) (p : List Byte) : (s.setPayload p).asrc = s.asrc := rfl
@[simp] theorem State.setPayload_kseq (s : State) (p : List Byte) : (s.setPayload p).kseq = s.kseq := rfl
@[simp] theorem State.setPayload_ib (s : State) (p : List Byte) : (s.setPayload p).ib = s.ib := rfl
@[simp] theorem State.setPayload_ob (s : State) (p : List Byte) : (s.setPayload p).ob = s.ob := rfl
@[simp] theorem State.setPayload_pl (s : State) (p : List Byte) : (s.setPayload p).pl = Memory.setSeq s.pl 0 p := rfl
@[simp] theorem State.setPayload_rl (s : State) (p : List Byte) : (s.setPayload p).rl = s.rl := rfl

/-! ### setRelay -/

@[simp] theorem State.setRelay_cfg (s : State) (r : List Byte) : (s.setRelay r).cfg = s.cfg := rfl
@[simp] theorem State.setRelay_pending (s : State) (r : List Byte) : (s.setRelay r).pending = s.pending := rfl
@[simp] theorem State.setRelay_epoch (s : State) (r : List Byte) : (s.setRelay r).epoch = s.epoch := rfl
@[simp] theorem State.setRelay_phase (s : State) (r : List Byte) : (s.setRelay r).phase = s.phase := rfl
@[simp] theorem State.setRelay_err (s : State) (r : List Byte) : (s.setRelay r).err = s.err := rfl
@[simp] theorem State.setRelay_lop (s : State) (r : List Byte) : (s.setRelay r).lop = s.lop := rfl
@[simp] theorem State.setRelay_epos (s : State) (r : List Byte) : (s.setRelay r).epos = s.epos := rfl
@[simp] theorem State.setRelay_len (s : State) (r : List Byte) : (s.setRelay r).len = s.len := rfl
@[simp] theorem State.setRelay_cur (s : State) (r : List Byte) : (s.setRelay r).cur = s.cur := rfl
@[simp] theorem State.setRelay_olen (s : State) (r : List Byte) : (s.setRelay r).olen = s.olen := rfl
@[simp] theorem State.setRelay_acc (s : State) (r : List Byte) : (s.setRelay r).acc = s.acc := rfl
@[simp] theorem State.setRelay_foff (s : State) (r : List Byte) : (s.setRelay r).foff = s.foff := rfl
@[simp] theorem State.setRelay_fwid (s : State) (r : List Byte) : (s.setRelay r).fwid = s.fwid := rfl
@[simp] theorem State.setRelay_fval (s : State) (r : List Byte) : (s.setRelay r).fval = s.fval := rfl
@[simp] theorem State.setRelay_txr (s : State) (r : List Byte) : (s.setRelay r).txr = s.txr := rfl
@[simp] theorem State.setRelay_fc (s : State) (r : List Byte) : (s.setRelay r).fc = s.fc := rfl
@[simp] theorem State.setRelay_dst (s : State) (r : List Byte) : (s.setRelay r).dst = s.dst := rfl
@[simp] theorem State.setRelay_src (s : State) (r : List Byte) : (s.setRelay r).src = s.src := rfl
@[simp] theorem State.setRelay_radius (s : State) (r : List Byte) : (s.setRelay r).radius = s.radius := rfl
@[simp] theorem State.setRelay_seq (s : State) (r : List Byte) : (s.setRelay r).seq = s.seq := rfl
@[simp] theorem State.setRelay_dieee (s : State) (r : List Byte) : (s.setRelay r).dieee = s.dieee := rfl
@[simp] theorem State.setRelay_sieee (s : State) (r : List Byte) : (s.setRelay r).sieee = s.sieee := rfl
@[simp] theorem State.setRelay_mc (s : State) (r : List Byte) : (s.setRelay r).mc = s.mc := rfl
@[simp] theorem State.setRelay_rcnt (s : State) (r : List Byte) : (s.setRelay r).rcnt = s.rcnt := rfl
@[simp] theorem State.setRelay_ridx (s : State) (r : List Byte) : (s.setRelay r).ridx = s.ridx := rfl
@[simp] theorem State.setRelay_rlen (s : State) (r : List Byte) : (s.setRelay r).rlen = BitVec.ofNat 16 r.length := rfl
@[simp] theorem State.setRelay_cid (s : State) (r : List Byte) : (s.setRelay r).cid = s.cid := rfl
@[simp] theorem State.setRelay_plen (s : State) (r : List Byte) : (s.setRelay r).plen = s.plen := rfl
@[simp] theorem State.setRelay_scr (s : State) (r : List Byte) : (s.setRelay r).scr = s.scr := rfl
@[simp] theorem State.setRelay_fcnt (s : State) (r : List Byte) : (s.setRelay r).fcnt = s.fcnt := rfl
@[simp] theorem State.setRelay_asrc (s : State) (r : List Byte) : (s.setRelay r).asrc = s.asrc := rfl
@[simp] theorem State.setRelay_kseq (s : State) (r : List Byte) : (s.setRelay r).kseq = s.kseq := rfl
@[simp] theorem State.setRelay_ib (s : State) (r : List Byte) : (s.setRelay r).ib = s.ib := rfl
@[simp] theorem State.setRelay_ob (s : State) (r : List Byte) : (s.setRelay r).ob = s.ob := rfl
@[simp] theorem State.setRelay_pl (s : State) (r : List Byte) : (s.setRelay r).pl = s.pl := rfl
@[simp] theorem State.setRelay_rl (s : State) (r : List Byte) : (s.setRelay r).rl = Memory.setSeq s.rl 0 r := rfl

/-! ### fail -/

@[simp] theorem State.fail_cfg (s : State) (f : Failure) (code : Byte) : (s.fail f code).cfg = s.cfg := rfl
@[simp] theorem State.fail_pending (s : State) (f : Failure) (code : Byte) : (s.fail f code).pending = s.pending := rfl
@[simp] theorem State.fail_epoch (s : State) (f : Failure) (code : Byte) : (s.fail f code).epoch = s.epoch := rfl
@[simp] theorem State.fail_phase (s : State) (f : Failure) (code : Byte) : (s.fail f code).phase = .failed := rfl
@[simp] theorem State.fail_err (s : State) (f : Failure) (code : Byte) : (s.fail f code).err = f.err := rfl
@[simp] theorem State.fail_lop (s : State) (f : Failure) (code : Byte) : (s.fail f code).lop = code := rfl
@[simp] theorem State.fail_epos (s : State) (f : Failure) (code : Byte) : (s.fail f code).epos = BitVec.ofNat 16 f.pos := rfl
@[simp] theorem State.fail_len (s : State) (f : Failure) (code : Byte) : (s.fail f code).len = s.len := rfl
@[simp] theorem State.fail_cur (s : State) (f : Failure) (code : Byte) : (s.fail f code).cur = s.cur := rfl
@[simp] theorem State.fail_olen (s : State) (f : Failure) (code : Byte) : (s.fail f code).olen = s.olen := rfl
@[simp] theorem State.fail_acc (s : State) (f : Failure) (code : Byte) : (s.fail f code).acc = s.acc := rfl
@[simp] theorem State.fail_foff (s : State) (f : Failure) (code : Byte) : (s.fail f code).foff = s.foff := rfl
@[simp] theorem State.fail_fwid (s : State) (f : Failure) (code : Byte) : (s.fail f code).fwid = s.fwid := rfl
@[simp] theorem State.fail_fval (s : State) (f : Failure) (code : Byte) : (s.fail f code).fval = s.fval := rfl
@[simp] theorem State.fail_txr (s : State) (f : Failure) (code : Byte) : (s.fail f code).txr = s.txr := rfl
@[simp] theorem State.fail_fc (s : State) (f : Failure) (code : Byte) : (s.fail f code).fc = s.fc := rfl
@[simp] theorem State.fail_dst (s : State) (f : Failure) (code : Byte) : (s.fail f code).dst = s.dst := rfl
@[simp] theorem State.fail_src (s : State) (f : Failure) (code : Byte) : (s.fail f code).src = s.src := rfl
@[simp] theorem State.fail_radius (s : State) (f : Failure) (code : Byte) : (s.fail f code).radius = s.radius := rfl
@[simp] theorem State.fail_seq (s : State) (f : Failure) (code : Byte) : (s.fail f code).seq = s.seq := rfl
@[simp] theorem State.fail_dieee (s : State) (f : Failure) (code : Byte) : (s.fail f code).dieee = s.dieee := rfl
@[simp] theorem State.fail_sieee (s : State) (f : Failure) (code : Byte) : (s.fail f code).sieee = s.sieee := rfl
@[simp] theorem State.fail_mc (s : State) (f : Failure) (code : Byte) : (s.fail f code).mc = s.mc := rfl
@[simp] theorem State.fail_rcnt (s : State) (f : Failure) (code : Byte) : (s.fail f code).rcnt = s.rcnt := rfl
@[simp] theorem State.fail_ridx (s : State) (f : Failure) (code : Byte) : (s.fail f code).ridx = s.ridx := rfl
@[simp] theorem State.fail_rlen (s : State) (f : Failure) (code : Byte) : (s.fail f code).rlen = s.rlen := rfl
@[simp] theorem State.fail_cid (s : State) (f : Failure) (code : Byte) : (s.fail f code).cid = s.cid := rfl
@[simp] theorem State.fail_plen (s : State) (f : Failure) (code : Byte) : (s.fail f code).plen = s.plen := rfl
@[simp] theorem State.fail_scr (s : State) (f : Failure) (code : Byte) : (s.fail f code).scr = s.scr := rfl
@[simp] theorem State.fail_fcnt (s : State) (f : Failure) (code : Byte) : (s.fail f code).fcnt = s.fcnt := rfl
@[simp] theorem State.fail_asrc (s : State) (f : Failure) (code : Byte) : (s.fail f code).asrc = s.asrc := rfl
@[simp] theorem State.fail_kseq (s : State) (f : Failure) (code : Byte) : (s.fail f code).kseq = s.kseq := rfl
@[simp] theorem State.fail_ib (s : State) (f : Failure) (code : Byte) : (s.fail f code).ib = s.ib := rfl
@[simp] theorem State.fail_ob (s : State) (f : Failure) (code : Byte) : (s.fail f code).ob = s.ob := rfl
@[simp] theorem State.fail_pl (s : State) (f : Failure) (code : Byte) : (s.fail f code).pl = s.pl := rfl
@[simp] theorem State.fail_rl (s : State) (f : Failure) (code : Byte) : (s.fail f code).rl = s.rl := rfl

/-! ### complete -/

@[simp] theorem State.complete_cfg (s : State) (code : Byte) : (s.complete code).cfg = s.cfg := rfl
@[simp] theorem State.complete_pending (s : State) (code : Byte) : (s.complete code).pending = s.pending := rfl
@[simp] theorem State.complete_epoch (s : State) (code : Byte) : (s.complete code).epoch = s.epoch := rfl
@[simp] theorem State.complete_phase (s : State) (code : Byte) : (s.complete code).phase = .done := rfl
@[simp] theorem State.complete_err (s : State) (code : Byte) : (s.complete code).err = s.err := rfl
@[simp] theorem State.complete_lop (s : State) (code : Byte) : (s.complete code).lop = code := rfl
@[simp] theorem State.complete_epos (s : State) (code : Byte) : (s.complete code).epos = s.epos := rfl
@[simp] theorem State.complete_len (s : State) (code : Byte) : (s.complete code).len = s.len := rfl
@[simp] theorem State.complete_cur (s : State) (code : Byte) : (s.complete code).cur = s.cur := rfl
@[simp] theorem State.complete_olen (s : State) (code : Byte) : (s.complete code).olen = s.olen := rfl
@[simp] theorem State.complete_acc (s : State) (code : Byte) : (s.complete code).acc = s.acc := rfl
@[simp] theorem State.complete_foff (s : State) (code : Byte) : (s.complete code).foff = s.foff := rfl
@[simp] theorem State.complete_fwid (s : State) (code : Byte) : (s.complete code).fwid = s.fwid := rfl
@[simp] theorem State.complete_fval (s : State) (code : Byte) : (s.complete code).fval = s.fval := rfl
@[simp] theorem State.complete_txr (s : State) (code : Byte) : (s.complete code).txr = s.txr := rfl
@[simp] theorem State.complete_fc (s : State) (code : Byte) : (s.complete code).fc = s.fc := rfl
@[simp] theorem State.complete_dst (s : State) (code : Byte) : (s.complete code).dst = s.dst := rfl
@[simp] theorem State.complete_src (s : State) (code : Byte) : (s.complete code).src = s.src := rfl
@[simp] theorem State.complete_radius (s : State) (code : Byte) : (s.complete code).radius = s.radius := rfl
@[simp] theorem State.complete_seq (s : State) (code : Byte) : (s.complete code).seq = s.seq := rfl
@[simp] theorem State.complete_dieee (s : State) (code : Byte) : (s.complete code).dieee = s.dieee := rfl
@[simp] theorem State.complete_sieee (s : State) (code : Byte) : (s.complete code).sieee = s.sieee := rfl
@[simp] theorem State.complete_mc (s : State) (code : Byte) : (s.complete code).mc = s.mc := rfl
@[simp] theorem State.complete_rcnt (s : State) (code : Byte) : (s.complete code).rcnt = s.rcnt := rfl
@[simp] theorem State.complete_ridx (s : State) (code : Byte) : (s.complete code).ridx = s.ridx := rfl
@[simp] theorem State.complete_rlen (s : State) (code : Byte) : (s.complete code).rlen = s.rlen := rfl
@[simp] theorem State.complete_cid (s : State) (code : Byte) : (s.complete code).cid = s.cid := rfl
@[simp] theorem State.complete_plen (s : State) (code : Byte) : (s.complete code).plen = s.plen := rfl
@[simp] theorem State.complete_scr (s : State) (code : Byte) : (s.complete code).scr = s.scr := rfl
@[simp] theorem State.complete_fcnt (s : State) (code : Byte) : (s.complete code).fcnt = s.fcnt := rfl
@[simp] theorem State.complete_asrc (s : State) (code : Byte) : (s.complete code).asrc = s.asrc := rfl
@[simp] theorem State.complete_kseq (s : State) (code : Byte) : (s.complete code).kseq = s.kseq := rfl
@[simp] theorem State.complete_ib (s : State) (code : Byte) : (s.complete code).ib = s.ib := rfl
@[simp] theorem State.complete_ob (s : State) (code : Byte) : (s.complete code).ob = s.ob := rfl
@[simp] theorem State.complete_pl (s : State) (code : Byte) : (s.complete code).pl = s.pl := rfl
@[simp] theorem State.complete_rl (s : State) (code : Byte) : (s.complete code).rl = s.rl := rfl

/-! ### clearFailure -/

@[simp] theorem State.clearFailure_cfg (s : State) : (s.clearFailure).cfg = s.cfg := rfl
@[simp] theorem State.clearFailure_pending (s : State) : (s.clearFailure).pending = s.pending := rfl
@[simp] theorem State.clearFailure_epoch (s : State) : (s.clearFailure).epoch = s.epoch := rfl
@[simp] theorem State.clearFailure_phase (s : State) : (s.clearFailure).phase = .idle := rfl
@[simp] theorem State.clearFailure_err (s : State) : (s.clearFailure).err = .noError := rfl
@[simp] theorem State.clearFailure_lop (s : State) : (s.clearFailure).lop = 0x01#8 := rfl
@[simp] theorem State.clearFailure_epos (s : State) : (s.clearFailure).epos = 0 := rfl
@[simp] theorem State.clearFailure_len (s : State) : (s.clearFailure).len = s.len := rfl
@[simp] theorem State.clearFailure_cur (s : State) : (s.clearFailure).cur = s.cur := rfl
@[simp] theorem State.clearFailure_olen (s : State) : (s.clearFailure).olen = s.olen := rfl
@[simp] theorem State.clearFailure_acc (s : State) : (s.clearFailure).acc = s.acc := rfl
@[simp] theorem State.clearFailure_foff (s : State) : (s.clearFailure).foff = s.foff := rfl
@[simp] theorem State.clearFailure_fwid (s : State) : (s.clearFailure).fwid = s.fwid := rfl
@[simp] theorem State.clearFailure_fval (s : State) : (s.clearFailure).fval = s.fval := rfl
@[simp] theorem State.clearFailure_txr (s : State) : (s.clearFailure).txr = s.txr := rfl
@[simp] theorem State.clearFailure_fc (s : State) : (s.clearFailure).fc = s.fc := rfl
@[simp] theorem State.clearFailure_dst (s : State) : (s.clearFailure).dst = s.dst := rfl
@[simp] theorem State.clearFailure_src (s : State) : (s.clearFailure).src = s.src := rfl
@[simp] theorem State.clearFailure_radius (s : State) : (s.clearFailure).radius = s.radius := rfl
@[simp] theorem State.clearFailure_seq (s : State) : (s.clearFailure).seq = s.seq := rfl
@[simp] theorem State.clearFailure_dieee (s : State) : (s.clearFailure).dieee = s.dieee := rfl
@[simp] theorem State.clearFailure_sieee (s : State) : (s.clearFailure).sieee = s.sieee := rfl
@[simp] theorem State.clearFailure_mc (s : State) : (s.clearFailure).mc = s.mc := rfl
@[simp] theorem State.clearFailure_rcnt (s : State) : (s.clearFailure).rcnt = s.rcnt := rfl
@[simp] theorem State.clearFailure_ridx (s : State) : (s.clearFailure).ridx = s.ridx := rfl
@[simp] theorem State.clearFailure_rlen (s : State) : (s.clearFailure).rlen = s.rlen := rfl
@[simp] theorem State.clearFailure_cid (s : State) : (s.clearFailure).cid = s.cid := rfl
@[simp] theorem State.clearFailure_plen (s : State) : (s.clearFailure).plen = s.plen := rfl
@[simp] theorem State.clearFailure_scr (s : State) : (s.clearFailure).scr = s.scr := rfl
@[simp] theorem State.clearFailure_fcnt (s : State) : (s.clearFailure).fcnt = s.fcnt := rfl
@[simp] theorem State.clearFailure_asrc (s : State) : (s.clearFailure).asrc = s.asrc := rfl
@[simp] theorem State.clearFailure_kseq (s : State) : (s.clearFailure).kseq = s.kseq := rfl
@[simp] theorem State.clearFailure_ib (s : State) : (s.clearFailure).ib = s.ib := rfl
@[simp] theorem State.clearFailure_ob (s : State) : (s.clearFailure).ob = s.ob := rfl
@[simp] theorem State.clearFailure_pl (s : State) : (s.clearFailure).pl = s.pl := rfl
@[simp] theorem State.clearFailure_rl (s : State) : (s.clearFailure).rl = s.rl := rfl

/-! ### commitSubframe -/

@[simp] theorem State.commitSubframe_cfg (s : State) (f : Subframe) : (s.commitSubframe f).cfg = s.cfg := rfl
@[simp] theorem State.commitSubframe_pending (s : State) (f : Subframe) : (s.commitSubframe f).pending = s.pending := rfl
@[simp] theorem State.commitSubframe_epoch (s : State) (f : Subframe) : (s.commitSubframe f).epoch = s.epoch := rfl
@[simp] theorem State.commitSubframe_phase (s : State) (f : Subframe) : (s.commitSubframe f).phase = s.phase := rfl
@[simp] theorem State.commitSubframe_err (s : State) (f : Subframe) : (s.commitSubframe f).err = s.err := rfl
@[simp] theorem State.commitSubframe_lop (s : State) (f : Subframe) : (s.commitSubframe f).lop = s.lop := rfl
@[simp] theorem State.commitSubframe_epos (s : State) (f : Subframe) : (s.commitSubframe f).epos = s.epos := rfl
@[simp] theorem State.commitSubframe_len (s : State) (f : Subframe) : (s.commitSubframe f).len = s.len := rfl
@[simp] theorem State.commitSubframe_cur (s : State) (f : Subframe) : (s.commitSubframe f).cur = s.cur := rfl
@[simp] theorem State.commitSubframe_olen (s : State) (f : Subframe) : (s.commitSubframe f).olen = s.olen := rfl
@[simp] theorem State.commitSubframe_acc (s : State) (f : Subframe) : (s.commitSubframe f).acc = s.acc := rfl
@[simp] theorem State.commitSubframe_foff (s : State) (f : Subframe) : (s.commitSubframe f).foff = s.foff := rfl
@[simp] theorem State.commitSubframe_fwid (s : State) (f : Subframe) : (s.commitSubframe f).fwid = s.fwid := rfl
@[simp] theorem State.commitSubframe_fval (s : State) (f : Subframe) : (s.commitSubframe f).fval = s.fval := rfl
@[simp] theorem State.commitSubframe_txr (s : State) (f : Subframe) : (s.commitSubframe f).txr = s.txr := rfl
@[simp] theorem State.commitSubframe_fc (s : State) (f : Subframe) : (s.commitSubframe f).fc = s.fc := rfl
@[simp] theorem State.commitSubframe_dst (s : State) (f : Subframe) : (s.commitSubframe f).dst = s.dst := rfl
@[simp] theorem State.commitSubframe_src (s : State) (f : Subframe) : (s.commitSubframe f).src = s.src := rfl
@[simp] theorem State.commitSubframe_radius (s : State) (f : Subframe) : (s.commitSubframe f).radius = s.radius := rfl
@[simp] theorem State.commitSubframe_seq (s : State) (f : Subframe) : (s.commitSubframe f).seq = s.seq := rfl
@[simp] theorem State.commitSubframe_dieee (s : State) (f : Subframe) : (s.commitSubframe f).dieee = s.dieee := rfl
@[simp] theorem State.commitSubframe_sieee (s : State) (f : Subframe) : (s.commitSubframe f).sieee = s.sieee := rfl
@[simp] theorem State.commitSubframe_mc (s : State) (f : Subframe) : (s.commitSubframe f).mc = s.mc := rfl
@[simp] theorem State.commitSubframe_rcnt (s : State) (f : Subframe) : (s.commitSubframe f).rcnt = f.count := rfl
@[simp] theorem State.commitSubframe_ridx (s : State) (f : Subframe) : (s.commitSubframe f).ridx = f.index := rfl
@[simp] theorem State.commitSubframe_rlen (s : State) (f : Subframe) : (s.commitSubframe f).rlen = BitVec.ofNat 16 f.relay.length := rfl
@[simp] theorem State.commitSubframe_cid (s : State) (f : Subframe) : (s.commitSubframe f).cid = s.cid := rfl
@[simp] theorem State.commitSubframe_plen (s : State) (f : Subframe) : (s.commitSubframe f).plen = s.plen := rfl
@[simp] theorem State.commitSubframe_scr (s : State) (f : Subframe) : (s.commitSubframe f).scr = s.scr := rfl
@[simp] theorem State.commitSubframe_fcnt (s : State) (f : Subframe) : (s.commitSubframe f).fcnt = s.fcnt := rfl
@[simp] theorem State.commitSubframe_asrc (s : State) (f : Subframe) : (s.commitSubframe f).asrc = s.asrc := rfl
@[simp] theorem State.commitSubframe_kseq (s : State) (f : Subframe) : (s.commitSubframe f).kseq = s.kseq := rfl
@[simp] theorem State.commitSubframe_ib (s : State) (f : Subframe) : (s.commitSubframe f).ib = s.ib := rfl
@[simp] theorem State.commitSubframe_ob (s : State) (f : Subframe) : (s.commitSubframe f).ob = s.ob := rfl
@[simp] theorem State.commitSubframe_pl (s : State) (f : Subframe) : (s.commitSubframe f).pl = s.pl := rfl
@[simp] theorem State.commitSubframe_rl (s : State) (f : Subframe) : (s.commitSubframe f).rl = Memory.setSeq s.rl 0 f.relay := rfl

/-! ### commitHeader -/

@[simp] theorem State.commitHeader_cfg (s : State) (h : Header) : (s.commitHeader h).cfg = s.cfg := rfl
@[simp] theorem State.commitHeader_pending (s : State) (h : Header) : (s.commitHeader h).pending = s.pending := rfl
@[simp] theorem State.commitHeader_epoch (s : State) (h : Header) : (s.commitHeader h).epoch = s.epoch := rfl
@[simp] theorem State.commitHeader_phase (s : State) (h : Header) : (s.commitHeader h).phase = s.phase := rfl
@[simp] theorem State.commitHeader_err (s : State) (h : Header) : (s.commitHeader h).err = s.err := rfl
@[simp] theorem State.commitHeader_lop (s : State) (h : Header) : (s.commitHeader h).lop = s.lop := rfl
@[simp] theorem State.commitHeader_epos (s : State) (h : Header) : (s.commitHeader h).epos = s.epos := rfl
@[simp] theorem State.commitHeader_len (s : State) (h : Header) : (s.commitHeader h).len = s.len := rfl
@[simp] theorem State.commitHeader_cur (s : State) (h : Header) : (s.commitHeader h).cur = s.cur := rfl
@[simp] theorem State.commitHeader_olen (s : State) (h : Header) : (s.commitHeader h).olen = s.olen := rfl
@[simp] theorem State.commitHeader_acc (s : State) (h : Header) : (s.commitHeader h).acc = s.acc := rfl
@[simp] theorem State.commitHeader_foff (s : State) (h : Header) : (s.commitHeader h).foff = s.foff := rfl
@[simp] theorem State.commitHeader_fwid (s : State) (h : Header) : (s.commitHeader h).fwid = s.fwid := rfl
@[simp] theorem State.commitHeader_fval (s : State) (h : Header) : (s.commitHeader h).fval = s.fval := rfl
@[simp] theorem State.commitHeader_txr (s : State) (h : Header) : (s.commitHeader h).txr = s.txr := rfl
@[simp] theorem State.commitHeader_fc (s : State) (h : Header) : (s.commitHeader h).fc = dropReservedFc h.fc := rfl
@[simp] theorem State.commitHeader_dst (s : State) (h : Header) : (s.commitHeader h).dst = h.dst := rfl
@[simp] theorem State.commitHeader_src (s : State) (h : Header) : (s.commitHeader h).src = h.src := rfl
@[simp] theorem State.commitHeader_radius (s : State) (h : Header) : (s.commitHeader h).radius = h.radius := rfl
@[simp] theorem State.commitHeader_seq (s : State) (h : Header) : (s.commitHeader h).seq = h.seq := rfl
@[simp] theorem State.commitHeader_dieee (s : State) (h : Header) : (s.commitHeader h).dieee = h.dieee := rfl
@[simp] theorem State.commitHeader_sieee (s : State) (h : Header) : (s.commitHeader h).sieee = h.sieee := rfl
@[simp] theorem State.commitHeader_mc (s : State) (h : Header) : (s.commitHeader h).mc = h.mc := rfl
@[simp] theorem State.commitHeader_rcnt (s : State) (h : Header) : (s.commitHeader h).rcnt = h.subframe.count := rfl
@[simp] theorem State.commitHeader_ridx (s : State) (h : Header) : (s.commitHeader h).ridx = h.subframe.index := rfl
@[simp] theorem State.commitHeader_rlen (s : State) (h : Header) : (s.commitHeader h).rlen = BitVec.ofNat 16 h.subframe.relay.length := rfl
@[simp] theorem State.commitHeader_cid (s : State) (h : Header) : (s.commitHeader h).cid = s.cid := rfl
@[simp] theorem State.commitHeader_plen (s : State) (h : Header) : (s.commitHeader h).plen = s.plen := rfl
@[simp] theorem State.commitHeader_scr (s : State) (h : Header) : (s.commitHeader h).scr = s.scr := rfl
@[simp] theorem State.commitHeader_fcnt (s : State) (h : Header) : (s.commitHeader h).fcnt = s.fcnt := rfl
@[simp] theorem State.commitHeader_asrc (s : State) (h : Header) : (s.commitHeader h).asrc = s.asrc := rfl
@[simp] theorem State.commitHeader_kseq (s : State) (h : Header) : (s.commitHeader h).kseq = s.kseq := rfl
@[simp] theorem State.commitHeader_ib (s : State) (h : Header) : (s.commitHeader h).ib = s.ib := rfl
@[simp] theorem State.commitHeader_ob (s : State) (h : Header) : (s.commitHeader h).ob = s.ob := rfl
@[simp] theorem State.commitHeader_pl (s : State) (h : Header) : (s.commitHeader h).pl = s.pl := rfl
@[simp] theorem State.commitHeader_rl (s : State) (h : Header) : (s.commitHeader h).rl = Memory.setSeq s.rl 0 h.subframe.relay := rfl

/-! ### hostClearOutput -/

@[simp] theorem State.hostClearOutput_cfg (s : State) : (s.hostClearOutput).cfg = s.cfg := rfl
@[simp] theorem State.hostClearOutput_pending (s : State) : (s.hostClearOutput).pending = s.pending := rfl
@[simp] theorem State.hostClearOutput_epoch (s : State) : (s.hostClearOutput).epoch = s.epoch := rfl
@[simp] theorem State.hostClearOutput_phase (s : State) : (s.hostClearOutput).phase = s.phase := rfl
@[simp] theorem State.hostClearOutput_err (s : State) : (s.hostClearOutput).err = s.err := rfl
@[simp] theorem State.hostClearOutput_lop (s : State) : (s.hostClearOutput).lop = s.lop := rfl
@[simp] theorem State.hostClearOutput_epos (s : State) : (s.hostClearOutput).epos = s.epos := rfl
@[simp] theorem State.hostClearOutput_len (s : State) : (s.hostClearOutput).len = s.len := rfl
@[simp] theorem State.hostClearOutput_cur (s : State) : (s.hostClearOutput).cur = s.cur := rfl
@[simp] theorem State.hostClearOutput_olen (s : State) : (s.hostClearOutput).olen = 0 := rfl
@[simp] theorem State.hostClearOutput_acc (s : State) : (s.hostClearOutput).acc = s.acc := rfl
@[simp] theorem State.hostClearOutput_foff (s : State) : (s.hostClearOutput).foff = s.foff := rfl
@[simp] theorem State.hostClearOutput_fwid (s : State) : (s.hostClearOutput).fwid = s.fwid := rfl
@[simp] theorem State.hostClearOutput_fval (s : State) : (s.hostClearOutput).fval = s.fval := rfl
@[simp] theorem State.hostClearOutput_txr (s : State) : (s.hostClearOutput).txr = s.txr := rfl
@[simp] theorem State.hostClearOutput_fc (s : State) : (s.hostClearOutput).fc = s.fc := rfl
@[simp] theorem State.hostClearOutput_dst (s : State) : (s.hostClearOutput).dst = s.dst := rfl
@[simp] theorem State.hostClearOutput_src (s : State) : (s.hostClearOutput).src = s.src := rfl
@[simp] theorem State.hostClearOutput_radius (s : State) : (s.hostClearOutput).radius = s.radius := rfl
@[simp] theorem State.hostClearOutput_seq (s : State) : (s.hostClearOutput).seq = s.seq := rfl
@[simp] theorem State.hostClearOutput_dieee (s : State) : (s.hostClearOutput).dieee = s.dieee := rfl
@[simp] theorem State.hostClearOutput_sieee (s : State) : (s.hostClearOutput).sieee = s.sieee := rfl
@[simp] theorem State.hostClearOutput_mc (s : State) : (s.hostClearOutput).mc = s.mc := rfl
@[simp] theorem State.hostClearOutput_rcnt (s : State) : (s.hostClearOutput).rcnt = s.rcnt := rfl
@[simp] theorem State.hostClearOutput_ridx (s : State) : (s.hostClearOutput).ridx = s.ridx := rfl
@[simp] theorem State.hostClearOutput_rlen (s : State) : (s.hostClearOutput).rlen = s.rlen := rfl
@[simp] theorem State.hostClearOutput_cid (s : State) : (s.hostClearOutput).cid = s.cid := rfl
@[simp] theorem State.hostClearOutput_plen (s : State) : (s.hostClearOutput).plen = s.plen := rfl
@[simp] theorem State.hostClearOutput_scr (s : State) : (s.hostClearOutput).scr = s.scr := rfl
@[simp] theorem State.hostClearOutput_fcnt (s : State) : (s.hostClearOutput).fcnt = s.fcnt := rfl
@[simp] theorem State.hostClearOutput_asrc (s : State) : (s.hostClearOutput).asrc = s.asrc := rfl
@[simp] theorem State.hostClearOutput_kseq (s : State) : (s.hostClearOutput).kseq = s.kseq := rfl
@[simp] theorem State.hostClearOutput_ib (s : State) : (s.hostClearOutput).ib = s.ib := rfl
@[simp] theorem State.hostClearOutput_ob (s : State) : (s.hostClearOutput).ob = s.ob := rfl
@[simp] theorem State.hostClearOutput_pl (s : State) : (s.hostClearOutput).pl = s.pl := rfl
@[simp] theorem State.hostClearOutput_rl (s : State) : (s.hostClearOutput).rl = s.rl := rfl

end Sys2Proof.Machine
end

