-- ==== Sys2Proof/Laws/Ops.lean ====
section
/-! SUPPORT. What each shared operation can do, said once: reading bytes, `Take`, `TakeRest`, `Put`, `PutSeq` and the
operation cycle. Later proofs cite these instead of unfolding the operations. -/

namespace Sys2Proof.Machine

/-! ### Reading -/

theorem State.readByte_def (s : State) (sp : Space) (i : Nat) :
    s.readByte sp i = (Memory.get? (s.mem sp) i).getD (Config.unwrittenByte s.epoch sp i) := by
  unfold State.readByte
  cases Memory.get? (s.mem sp) i <;> rfl

/-- A byte reads the same in two states whose space and reset count are the same. -/
theorem State.readByte_congr {s t : State} {sp : Space} {i : Nat} (he : t.epoch = s.epoch)
    (hm : Memory.get? (t.mem sp) i = Memory.get? (s.mem sp) i) : t.readByte sp i = s.readByte sp i := by
  rw [State.readByte_def, State.readByte_def, he, hm]

theorem State.readBytes_congr {s t : State} {sp : Space} (he : t.epoch = s.epoch) (hm : t.mem sp = s.mem sp)
    (a n : Nat) : t.readBytes sp a n = s.readBytes sp a n := by
  induction n generalizing a with
  | zero => rfl
  | succ n ih => rw [State.readBytes, State.readBytes, ih, State.readByte_congr he (by rw [hm])]

@[simp] theorem State.readBytes_length (s : State) (sp : Space) (a n : Nat) :
    (s.readBytes sp a n).length = n := by
  induction n generalizing a with
  | zero => rfl
  | succ n ih => simp [State.readBytes, ih]

theorem State.readBytes_getElem (s : State) (sp : Space) (a n i : Nat) (h : i < (s.readBytes sp a n).length) :
    (s.readBytes sp a n)[i] = s.readByte sp (a + i) := by
  induction n generalizing a i with
  | zero => simp [State.readBytes] at h
  | succ n ih =>
    cases i with
    | zero => simp [State.readBytes]
    | succ i =>
      simp only [State.readBytes, List.getElem_cons_succ]
      rw [ih, show a + 1 + i = a + (i + 1) by omega]

/-- The bytes of a space, as the list the statements write. -/
theorem State.readBytes_eq_ofFn (s : State) (sp : Space) (a n : Nat) :
    s.readBytes sp a n = List.ofFn (fun i : Fin n => s.readByte sp (a + i.val)) := by
  apply List.ext_getElem
  · simp
  · intro i h1 h2
    rw [State.readBytes_getElem]
    simp

/-- `Take` assembles the value that R12 defines. -/
theorem State.leNat_readBytes (s : State) (a n : Nat) : leNat (s.readBytes .ib a n) = s.wire a n := by
  rw [leNat_eq_sum, State.readBytes_length, State.wire]
  refine Finset.sum_congr rfl (fun i hi => ?_)
  have h : i < (s.readBytes .ib a n).length := by simpa using hi
  rw [List.getD_eq_getElem _ _ h, State.readBytes_getElem]

theorem State.wire_lt (s : State) (a n : Nat) : s.wire a n < 256 ^ n := by
  have := leNat_lt (s.readBytes .ib a n)
  rwa [State.leNat_readBytes, State.readBytes_length] at this

theorem State.wire_one (s : State) (a : Nat) : s.wire a 1 = (s.readByte .ib a).toNat := by
  simp [State.wire]

/-- The list of bytes `Put` appends, as the statements write it. -/
theorem leBytes_eq_wireBytes (n v : Nat) : leBytes n v = wireBytes n v := by
  apply List.ext_getElem
  · simp [wireBytes]
  · intro i h1 h2
    rw [leBytes_getElem]
    simp [wireBytes]

/-! ### The primitives of 00_scope.md R13 -/

/-- `Take` succeeds exactly with the bytes in the scope, and then only moves the cursor. -/
theorem State.take_eq_ok {s t : State} {n v : Nat} (h : s.take n = .ok (v, t)) :
    n ≤ s.len.toNat - s.cur.toNat ∧ v = s.wire s.cur.toNat n ∧
      t = { s with cur := BitVec.ofNat 16 (s.cur.toNat + n) } := by
  unfold State.take at h
  split at h
  · cases h
  · rename_i hn
    injection h with h
    injection h with h1 h2
    exact ⟨by omega, by rw [← h1, State.leNat_readBytes], h2.symm⟩

theorem State.take_of_le {s : State} {n : Nat} (h : n ≤ s.len.toNat - s.cur.toNat) :
    s.take n = .ok (s.wire s.cur.toNat n, { s with cur := BitVec.ofNat 16 (s.cur.toNat + n) }) := by
  unfold State.take
  rw [if_neg (by omega), State.leNat_readBytes]

theorem State.take_of_lt {s : State} {n : Nat} (h : s.len.toNat - s.cur.toNat < n) :
    s.take n = .error ⟨.insufficientBytes, s.cur.toNat⟩ := by
  unfold State.take
  rw [if_pos h]

/-- `Take` fails only with `InsufficientBytes` at the cursor. -/
theorem State.take_eq_error {s : State} {n : Nat} {f : Failure} (h : s.take n = .error f) :
    s.len.toNat - s.cur.toNat < n ∧ f = ⟨.insufficientBytes, s.cur.toNat⟩ := by
  unfold State.take at h
  split at h
  · injection h with h
    exact ⟨by assumption, h.symm⟩
  · cases h

/-- The cursor after a `Take` is exact: it never wraps. -/
theorem State.take_cur {s : State} {n : Nat} (h : n ≤ s.len.toNat - s.cur.toNat) :
    (BitVec.ofNat 16 (s.cur.toNat + n)).toNat = s.cur.toNat + n := by
  have hl := s.len.isLt
  have hc := s.cur.isLt
  rw [BitVec.toNat_ofNat]
  omega

theorem State.takeRest_of_le {s : State} {cap : Nat} (h : s.len.toNat - s.cur.toNat ≤ cap) :
    s.takeRest cap =
      .ok (s.readBytes .ib s.cur.toNat (s.len.toNat - s.cur.toNat), { s with cur := s.len }) := by
  unfold State.takeRest
  rw [if_neg (by omega)]

theorem State.takeRest_of_lt {s : State} {cap : Nat} (h : cap < s.len.toNat - s.cur.toNat) :
    s.takeRest cap = .error ⟨.capacityExceeded, s.cur.toNat⟩ := by
  unfold State.takeRest
  rw [if_pos (by omega)]

/-- `TakeRest` succeeds exactly when the rest of the scope fits, and then only moves the cursor to `LEN`. -/
theorem State.takeRest_eq_ok {s t : State} {cap : Nat} {b : List Byte} (h : s.takeRest cap = .ok (b, t)) :
    s.len.toNat - s.cur.toNat ≤ cap ∧
      b = s.readBytes .ib s.cur.toNat (s.len.toNat - s.cur.toNat) ∧ t = { s with cur := s.len } := by
  unfold State.takeRest at h
  split at h
  · cases h
  · injection h with h
    injection h with h1 h2
    exact ⟨by omega, h1.symm, h2.symm⟩

/-- `TakeRest` fails only with `CapacityExceeded` at the cursor. -/
theorem State.takeRest_eq_error {s : State} {cap : Nat} {f : Failure} (h : s.takeRest cap = .error f) :
    cap < s.len.toNat - s.cur.toNat ∧ f = ⟨.capacityExceeded, s.cur.toNat⟩ := by
  unfold State.takeRest at h
  split at h
  · injection h with h
    exact ⟨by omega, h.symm⟩
  · cases h

theorem State.putSeq_of_le {s : State} {b : List Byte} (h : s.olen.toNat + b.length ≤ s.cfg.obCap) :
    s.putSeq b = .ok { s with ob := Memory.setSeq s.ob s.olen.toNat b,
                              olen := BitVec.ofNat 16 (s.olen.toNat + b.length) } := by
  unfold State.putSeq
  rw [if_neg (by omega)]

theorem State.putSeq_of_lt {s : State} {b : List Byte} (h : s.cfg.obCap < s.olen.toNat + b.length) :
    s.putSeq b = .error ⟨.capacityExceeded, s.olen.toNat⟩ := by
  unfold State.putSeq
  rw [if_pos (by omega)]

/-- `PutSeq` succeeds exactly when the bytes fit, and then only appends them. -/
theorem State.putSeq_eq_ok {s t : State} {b : List Byte} (h : s.putSeq b = .ok t) :
    s.olen.toNat + b.length ≤ s.cfg.obCap ∧
      t = { s with ob := Memory.setSeq s.ob s.olen.toNat b,
                   olen := BitVec.ofNat 16 (s.olen.toNat + b.length) } := by
  unfold State.putSeq at h
  split at h
  · cases h
  · injection h with h
    exact ⟨by omega, h.symm⟩

/-- `PutSeq` fails only with `CapacityExceeded` at `OLEN`. -/
theorem State.putSeq_eq_error {s : State} {b : List Byte} {f : Failure} (h : s.putSeq b = .error f) :
    s.cfg.obCap < s.olen.toNat + b.length ∧ f = ⟨.capacityExceeded, s.olen.toNat⟩ := by
  unfold State.putSeq at h
  split at h
  · injection h with h
    exact ⟨by omega, h.symm⟩
  · cases h

/-- The output capacity fits the 16-bit `OLEN`, so an append never wraps it. -/
theorem Config.obCap_lt (c : Config) : c.obCap < 65536 := by
  have := c.obCapLessOne.isLt
  unfold Config.obCap
  omega

theorem Config.ibCap_lt (c : Config) : c.ibCap < 65536 := by
  have := c.ibCapLessOne.isLt
  unfold Config.ibCap
  omega

theorem Config.payloadCap_lt (c : Config) : c.payloadCap < 65536 := c.payloadCapacity.isLt

theorem Config.relayCap_lt (c : Config) : c.relayCap < 65536 := c.relayCapacity.isLt

/-! ### The operation cycle -/

@[simp] theorem runOp_of_failed {code : Byte} {body : State → Except Failure State} {s : State}
    (h : s.phase = .failed) : runOp code body s = .next s := by
  unfold runOp
  rw [if_pos h]

theorem runOp_of_ok {code : Byte} {body : State → Except Failure State} {s t : State}
    (h : s.phase ≠ .failed) (hb : body s = .ok t) : runOp code body s = .next (t.complete code) := by
  unfold runOp
  rw [if_neg h, hb]

theorem runOp_of_error {code : Byte} {body : State → Except Failure State} {s : State} {f : Failure}
    (h : s.phase ≠ .failed) (hb : body s = .error f) : runOp code body s = .next (s.fail f code) := by
  unfold runOp
  rw [if_neg h, hb]

/-- All an operation can do (10_state.md R21): nothing while `Failed`, completion, or failure entry. -/
theorem runOp_cases {code : Byte} {body : State → Except Failure State} {s t : State}
    (h : runOp code body s = .next t) :
    (s.phase = .failed ∧ t = s) ∨
    (s.phase ≠ .failed ∧ ∃ u, body s = .ok u ∧ t = u.complete code) ∨
    (s.phase ≠ .failed ∧ ∃ f, body s = .error f ∧ t = s.fail f code) := by
  unfold runOp at h
  injection h with h
  by_cases hp : s.phase = .failed
  · rw [if_pos hp] at h
    exact .inl ⟨hp, h.symm⟩
  · rw [if_neg hp] at h
    cases hb : body s with
    | ok u =>
      rw [hb] at h
      exact .inr (.inl ⟨hp, u, rfl, h.symm⟩)
    | error f =>
      rw [hb] at h
      exact .inr (.inr ⟨hp, f, rfl, h.symm⟩)

/-- An operation always answers a next state. -/
theorem runOp_next (code : Byte) (body : State → Except Failure State) (s : State) :
    ∃ t, runOp code body s = .next t := ⟨_, rfl⟩

/-- Failure entry is the state the statements call `raised` (60_exceptions.md R236). -/
theorem State.fail_eq_raised (s : State) (e : ErrCode) (p : Nat) (code : Byte) :
    s.fail ⟨e, p⟩ code = s.raised e p code := rfl

/-- Completion is the state the statements call `doneWith` (10_state.md R21). -/
theorem State.complete_eq_doneWith (s : State) (code : Byte) : s.complete code = s.doneWith code := rfl

/-! ### Sequencing -/

theorem except_bind_ok {α β : Type} {x : Except Failure α} {g : α → Except Failure β} {r : β}
    (h : (x >>= g) = .ok r) : ∃ a, x = .ok a ∧ g a = .ok r := by
  cases x with
  | error f => cases h
  | ok a => exact ⟨a, rfl, h⟩

theorem except_bind_error {α β : Type} {x : Except Failure α} {g : α → Except Failure β} {f : Failure}
    (h : (x >>= g) = .error f) : x = .error f ∨ ∃ a, x = .ok a ∧ g a = .error f := by
  cases x with
  | error f' => exact .inl (by cases h; rfl)
  | ok a => exact .inr ⟨a, rfl, h⟩

end Sys2Proof.Machine
end

