-- ==== Sys2Proof/Laws/Exec.lean ====
section
/-! SUPPORT. Every operation but `NOP` and `CLR` is one operation cycle around its pseudocode (10_state.md R21), with
the code of its row: proofs about all operations go through this one lemma. -/

namespace Sys2Proof.Machine

/-- The pseudocode of an operation. `NOP` and `CLR` have none that the cycle runs. -/
def opBody : Instr → State → Except Failure State
  | .nop => .ok
  | .clr => .ok
  | .decU8 => decodeAcc 1
  | .decU16 => decodeAcc 2
  | .decU32 => decodeAcc 4
  | .decU64 => decodeAcc 8
  | .decBuf => decodePayload
  | .encU8 => encodeAcc 1
  | .encU16 => encodeAcc 2
  | .encU32 => encodeAcc 4
  | .encU64 => encodeAcc 8
  | .encBuf => encodePayload
  | .bfGet8 => bitfieldGet 8
  | .bfGet16 => bitfieldGet 16
  | .bfTst8 => bitfieldTest 8
  | .bfTst16 => bitfieldTest 16
  | .bfMake8 => bitfieldMake 8
  | .bfMake16 => bitfieldMake 16
  | .decFc => decodeFc
  | .decMc => decodeMc
  | .decSrs => decodeSubframe
  | .decHdr => decodeHeader
  | .decCid => decodeCid
  | .decFrm => decodeFrame
  | .txm => classify
  | .encFc => encodeFc
  | .encMc => encodeMc
  | .encSrs => State.putSubframe
  | .encHdr => encodeHeader
  | .encCid => encodeCid
  | .encFrm => encodeFrame
  | .decSc => decodeSc
  | .decAux => decodeAux
  | .encSc => encodeSc
  | .encAux => encodeAux
  | .nwkData fc => decodeFrameAs fc decodeArmData
  | .nwkCmd fc => decodeFrameAs fc decodeArmCommand
  | .nwkRsvd fc => decodeFrameAs fc decodeArmReserved
  | .nwkInterPan fc => decodeFrameAs fc decodeArmInterPan

theorem exec_eq_runOp (i : Instr) (s : State) (h1 : i ≠ .nop) (h2 : i ≠ .clr) :
    exec i s = runOp i.opCode (opBody i) s := by
  cases i <;> first | rfl | exact absurd rfl h1 | exact absurd rfl h2

/-- An instruction whose pseudocode runs to its end completes. -/
theorem exec_of_ok {i : Instr} {s t : State} (h1 : i ≠ .nop) (h2 : i ≠ .clr) (hp : s.phase ≠ .failed)
    (h : opBody i s = .ok t) : exec i s = .next (t.doneWith i.opCode) := by
  rw [exec_eq_runOp i s h1 h2, runOp_of_ok hp h, State.complete_eq_doneWith]

/-- An instruction whose pseudocode raises fails. -/
theorem exec_of_error {i : Instr} {s : State} {f : Failure} (h1 : i ≠ .nop) (h2 : i ≠ .clr) (hp : s.phase ≠ .failed)
    (h : opBody i s = .error f) : exec i s = .next (s.raised f.err f.pos i.opCode) := by
  rw [exec_eq_runOp i s h1 h2, runOp_of_error hp h, State.fail_eq_raised]

/-- All an instruction can do: `NOP` and `CLR` have their one effect; every other one does nothing while `Failed`,
completes with what its pseudocode wrote, or fails with none of it. -/
theorem exec_cases {i : Instr} {s t : State} (h : exec i s = .next t) :
    (i = .nop ∧ t = s) ∨ (i = .clr ∧ t = s.clearFailure) ∨ (s.phase = .failed ∧ t = s) ∨
    (s.phase ≠ .failed ∧ ∃ u, opBody i s = .ok u ∧ t = u.doneWith i.opCode) ∨
    (s.phase ≠ .failed ∧ ∃ f, opBody i s = .error f ∧ t = s.raised f.err f.pos i.opCode) := by
  by_cases h1 : i = .nop
  · subst h1
    injection h with h
    exact .inl ⟨rfl, h.symm⟩
  by_cases h2 : i = .clr
  · subst h2
    injection h with h
    exact .inr (.inl ⟨rfl, h.symm⟩)
  rw [exec_eq_runOp i s h1 h2] at h
  exact .inr (.inr (runOp_cases h))

end Sys2Proof.Machine
end

