-- ==== Sys2Proof/Laws/PerInstr.lean ====
section
/-! SUPPORT. One lemma per instruction: the operation code its row gives it (30_encoding.md R82) is decoded to it. A
wire row's bytes are its FrameControl word (R105), which the decoder reads in the other format. -/

namespace Sys2Proof.Laws

/-- The code of an `OP8` row decodes to the row. -/
def OpCodeDecodes.Statement (i : Instr) : Prop := i.format = .op8 → decodeOp i.opCode = .ok i

theorem OpCodeDecodes.nop : OpCodeDecodes.Statement .nop := fun _ => rfl
theorem OpCodeDecodes.clr : OpCodeDecodes.Statement .clr := fun _ => rfl
theorem OpCodeDecodes.decU8 : OpCodeDecodes.Statement .decU8 := fun _ => rfl
theorem OpCodeDecodes.decU16 : OpCodeDecodes.Statement .decU16 := fun _ => rfl
theorem OpCodeDecodes.decU32 : OpCodeDecodes.Statement .decU32 := fun _ => rfl
theorem OpCodeDecodes.decU64 : OpCodeDecodes.Statement .decU64 := fun _ => rfl
theorem OpCodeDecodes.decBuf : OpCodeDecodes.Statement .decBuf := fun _ => rfl
theorem OpCodeDecodes.encU8 : OpCodeDecodes.Statement .encU8 := fun _ => rfl
theorem OpCodeDecodes.encU16 : OpCodeDecodes.Statement .encU16 := fun _ => rfl
theorem OpCodeDecodes.encU32 : OpCodeDecodes.Statement .encU32 := fun _ => rfl
theorem OpCodeDecodes.encU64 : OpCodeDecodes.Statement .encU64 := fun _ => rfl
theorem OpCodeDecodes.encBuf : OpCodeDecodes.Statement .encBuf := fun _ => rfl
theorem OpCodeDecodes.bfGet8 : OpCodeDecodes.Statement .bfGet8 := fun _ => rfl
theorem OpCodeDecodes.bfGet16 : OpCodeDecodes.Statement .bfGet16 := fun _ => rfl
theorem OpCodeDecodes.bfTst8 : OpCodeDecodes.Statement .bfTst8 := fun _ => rfl
theorem OpCodeDecodes.bfTst16 : OpCodeDecodes.Statement .bfTst16 := fun _ => rfl
theorem OpCodeDecodes.bfMake8 : OpCodeDecodes.Statement .bfMake8 := fun _ => rfl
theorem OpCodeDecodes.bfMake16 : OpCodeDecodes.Statement .bfMake16 := fun _ => rfl
theorem OpCodeDecodes.decFc : OpCodeDecodes.Statement .decFc := fun _ => rfl
theorem OpCodeDecodes.decMc : OpCodeDecodes.Statement .decMc := fun _ => rfl
theorem OpCodeDecodes.decSrs : OpCodeDecodes.Statement .decSrs := fun _ => rfl
theorem OpCodeDecodes.decHdr : OpCodeDecodes.Statement .decHdr := fun _ => rfl
theorem OpCodeDecodes.decCid : OpCodeDecodes.Statement .decCid := fun _ => rfl
theorem OpCodeDecodes.decFrm : OpCodeDecodes.Statement .decFrm := fun _ => rfl
theorem OpCodeDecodes.txm : OpCodeDecodes.Statement .txm := fun _ => rfl
theorem OpCodeDecodes.encFc : OpCodeDecodes.Statement .encFc := fun _ => rfl
theorem OpCodeDecodes.encMc : OpCodeDecodes.Statement .encMc := fun _ => rfl
theorem OpCodeDecodes.encSrs : OpCodeDecodes.Statement .encSrs := fun _ => rfl
theorem OpCodeDecodes.encHdr : OpCodeDecodes.Statement .encHdr := fun _ => rfl
theorem OpCodeDecodes.encCid : OpCodeDecodes.Statement .encCid := fun _ => rfl
theorem OpCodeDecodes.encFrm : OpCodeDecodes.Statement .encFrm := fun _ => rfl
theorem OpCodeDecodes.decSc : OpCodeDecodes.Statement .decSc := fun _ => rfl
theorem OpCodeDecodes.decAux : OpCodeDecodes.Statement .decAux := fun _ => rfl
theorem OpCodeDecodes.encSc : OpCodeDecodes.Statement .encSc := fun _ => rfl
theorem OpCodeDecodes.encAux : OpCodeDecodes.Statement .encAux := fun _ => rfl
theorem OpCodeDecodes.nwkData (fc : Word16) : OpCodeDecodes.Statement (.nwkData fc) := fun h => nomatch h
theorem OpCodeDecodes.nwkCmd (fc : Word16) : OpCodeDecodes.Statement (.nwkCmd fc) := fun h => nomatch h
theorem OpCodeDecodes.nwkRsvd (fc : Word16) : OpCodeDecodes.Statement (.nwkRsvd fc) := fun h => nomatch h
theorem OpCodeDecodes.nwkInterPan (fc : Word16) : OpCodeDecodes.Statement (.nwkInterPan fc) := fun h => nomatch h

end Sys2Proof.Laws
end

