-- ==== Sys2Proof/Tests/Slice0.lean ====
section
/-! SUPPORT. Tests of the model on the spec's own vectors (95_test_vectors.md: S<n>, V<n>), the smoke tests of the
well-formedness checks, one written-out word per row, and a witness for the hypotheses of every statement. Expected
values are the spec's. -/

namespace Sys2Proof.Tests

open Sys2Proof.Machine

/-! ### Helpers -/

/-- Some classification table: the spec gives none (R8). -/
def someTable : TxmTable := ⟨.unicast, .broadcast, .multicast, .sourceRouted, .unicast, .broadcast⟩

/-- The state after reset of a block of configuration REF (R9). -/
def refBlock : State := { State.reset with cfg := Config.ref someTable }

/-- The state after reset of a block of configuration TINY (R9). -/
def tinyBlock : State := { State.reset with cfg := Config.tiny someTable }

/-- The state an outcome leads to. -/
def stateOf : Host.Outcome State Fault Refusal → State
  | .next t => t
  | .fault _ => State.reset
  | .refused _ => State.reset

/-- The state after one instruction. -/
def after (i : Instr) (s : State) : State := stateOf (exec i s)

/-- The state after one step on one host action. -/
def play (a : HostAction) (s : State) : State := stateOf (step { s with pending := [a] })

/-! ### Well-formedness: an ill-formed term for each check -/

theorem test_wf_refuses_wrong_tag : (Instr.nwkData 0x0001#16).wf = false := by decide
theorem test_wf_refuses_wrong_tag_cmd : (Instr.nwkCmd 0x0002#16).wf = false := by decide
theorem test_wf_refuses_wrong_tag_rsvd : (Instr.nwkRsvd 0x0003#16).wf = false := by decide
theorem test_wf_refuses_wrong_tag_interpan : (Instr.nwkInterPan 0x0000#16).wf = false := by decide
theorem test_wf_refuses_reserved_bit_14 : (Instr.nwkData 0x4000#16).wf = false := by decide
theorem test_wf_refuses_reserved_bit_15 : (Instr.nwkInterPan 0x8003#16).wf = false := by decide
theorem test_wf_accepts : (Instr.nwkData 0x2A7C#16).wf = true := by decide

/-! ### Decode: the word of every row, written out from 30_encoding.md R82 and R105 -/

theorem test_decode_control : decodeTableWord 8 0b00000000 = some .nop ∧ decodeTableWord 8 0b00000001 = some .clr := by
  decide

theorem test_decode_primitive_decodes :
    decodeTableWord 8 0b00010000 = some .decU8 ∧ decodeTableWord 8 0b00010001 = some .decU16 ∧
    decodeTableWord 8 0b00010010 = some .decU32 ∧ decodeTableWord 8 0b00010011 = some .decU64 ∧
    decodeTableWord 8 0b00010100 = some .decBuf := by decide

theorem test_decode_primitive_encodes :
    decodeTableWord 8 0b00100000 = some .encU8 ∧ decodeTableWord 8 0b00100001 = some .encU16 ∧
    decodeTableWord 8 0b00100010 = some .encU32 ∧ decodeTableWord 8 0b00100011 = some .encU64 ∧
    decodeTableWord 8 0b00100100 = some .encBuf := by decide

theorem test_decode_bitfield :
    decodeTableWord 8 0b00110000 = some .bfGet8 ∧ decodeTableWord 8 0b00110001 = some .bfGet16 ∧
    decodeTableWord 8 0b00110010 = some .bfTst8 ∧ decodeTableWord 8 0b00110011 = some .bfTst16 ∧
    decodeTableWord 8 0b00110100 = some .bfMake8 ∧ decodeTableWord 8 0b00110101 = some .bfMake16 := by decide

theorem test_decode_nwk_decodes :
    decodeTableWord 8 0b01000000 = some .decFc ∧ decodeTableWord 8 0b01000001 = some .decMc ∧
    decodeTableWord 8 0b01000010 = some .decSrs ∧ decodeTableWord 8 0b01000011 = some .decHdr ∧
    decodeTableWord 8 0b01000100 = some .decCid ∧ decodeTableWord 8 0b01000101 = some .decFrm ∧
    decodeTableWord 8 0b01000110 = some .txm := by decide

theorem test_decode_nwk_encodes :
    decodeTableWord 8 0b01010000 = some .encFc ∧ decodeTableWord 8 0b01010001 = some .encMc ∧
    decodeTableWord 8 0b01010010 = some .encSrs ∧ decodeTableWord 8 0b01010011 = some .encHdr ∧
    decodeTableWord 8 0b01010100 = some .encCid ∧ decodeTableWord 8 0b01010101 = some .encFrm := by decide

theorem test_decode_security :
    decodeTableWord 8 0b01100000 = some .decSc ∧ decodeTableWord 8 0b01100001 = some .decAux ∧
    decodeTableWord 8 0b01110000 = some .encSc ∧ decodeTableWord 8 0b01110001 = some .encAux := by decide

/-- The FrameControl words of S1 and S2 and of V47 and V48; the first byte is the low half of the word. -/
theorem test_decode_wire_rows :
    decodeTableWord 16 0b0010101001111100 = some (.nwkData 0x2A7C#16) ∧
    decodeTableWord 16 0b0001001000001001 = some (.nwkCmd 0x1209#16) ∧
    decodeTableWord 16 0b0000000000001010 = some (.nwkRsvd 0x000A#16) ∧
    decodeTableWord 16 0b0000000000001011 = some (.nwkInterPan 0x000B#16) := by decide

/-- R100: the reserved bits are ignored. -/
theorem test_decode_ignores_reserved_bits : decodeTableWord 16 0xEA7C = some (.nwkData 0x2A7C#16) := by decide

/-- V76 and R84: unassigned codes are refused. -/
theorem test_decode_refuses_unassigned :
    decodeTableWord 8 0x99 = none ∧ decodeTableWord 8 0x15 = none ∧ decodeTableWord 8 0xFF = none ∧
    decodeTableWord 8 0x02 = none ∧ decodeTableWord 8 0x72 = none := by decide

/-! ### The operation cycle -/

/-- V74. -/
theorem test_nop_keeps_status :
    (after .nop { refBlock with phase := .done, lop := 0x45#8 }).status = 0x4501#16 := by decide

/-- V75. -/
theorem test_clr_leaves_failed :
    let t := after .clr { refBlock with phase := .failed, err := .insufficientBytes, epos := 16, lop := 0x45#8, len := 16 }
    (t.status, t.epos, t.len) = (0x0100#16, 0#16, 16#16) := by decide

/-- V76 (a). -/
theorem test_illegal_code :
    let t := play (.op 0x99#8) refBlock
    (t.status, t.epos) = (0x9912#16, 0#16) := by decide

/-- V85: while `Failed`, `DEC.HDR` and an unassigned code are ignored. -/
theorem test_failed_ignores :
    let s := { refBlock with phase := .failed, err := .insufficientBytes, epos := 16, lop := 0x45#8 }
    (play (.op 0x43#8) s).status = 0x4506#16 ∧ (play (.op 0x99#8) s).status = 0x4506#16 := by decide

/-! ### Primitive decodes and encodes -/

/-- V1. -/
theorem test_decU8 : let t := after .decU8 (refBlock.hostLoad [0xAB])
    (t.acc, t.cur, t.status) = (0xAB#64, 1#16, 0x1001#16) := by decide

/-- V6. -/
theorem test_decU8_empty : (after .decU8 refBlock).status = 0x1006#16 := by decide

/-- V2. -/
theorem test_decU16 : let t := after .decU16 (refBlock.hostLoad [0x34, 0x12])
    (t.acc, t.cur, t.status) = (0x1234#64, 2#16, 0x1101#16) := by decide

/-- V5. -/
theorem test_decU16_short : let t := after .decU16 (refBlock.hostLoad [0x34])
    (t.acc, t.cur, t.status) = (0#64, 0#16, 0x1106#16) := by decide

/-- V3. -/
theorem test_decU32 : let t := after .decU32 (refBlock.hostLoad [0x78, 0x56, 0x34, 0x12])
    (t.acc, t.cur, t.status) = (0x12345678#64, 4#16, 0x1201#16) := by decide

/-- V7. -/
theorem test_decU32_short : let t := after .decU32 { refBlock.hostLoad [1, 2, 3, 4, 5] with cur := 2 }
    (t.epos, t.cur, t.status) = (2#16, 2#16, 0x1206#16) := by decide

/-- V4. -/
theorem test_decU64 : let t := after .decU64 (refBlock.hostLoad [0x66, 0x71, 0x9A, 0x2A, 0x00, 0x4B, 0x12, 0x00])
    (t.acc, t.cur, t.status) = (0x00124B002A9A7166#64, 8#16, 0x1301#16) := by decide

/-- V78. -/
theorem test_decU64_short : (after .decU64 (refBlock.hostLoad [1, 2, 3, 4, 5, 6, 7])).status = 0x1306#16 := by decide

/-- V10. -/
theorem test_decBuf_full : let t := after .decBuf (tinyBlock.hostLoad [0xDE, 0xAD, 0xBE, 0xEF])
    (t.payload, t.cur, t.status) = ([0xDE, 0xAD, 0xBE, 0xEF], 4#16, 0x1401#16) := by decide

/-- V11. -/
theorem test_decBuf_over : let t := after .decBuf (tinyBlock.hostLoad [0xDE, 0xAD, 0xBE, 0xEF, 0])
    (t.plen, t.cur, t.status) = (0#16, 0#16, 0x140A#16) := by decide

/-- R125's example: the bits above the low byte are ignored. -/
theorem test_encU8 : let t := after .encU8 { refBlock with acc := 0x1BF }
    (t.output, t.status) = ([0xBF], 0x2001#16) := by decide

/-- V77. -/
theorem test_encU8_full : let t := after .encU8 { tinyBlock with olen := 16 }
    (t.epos, t.olen, t.status) = (16#16, 16#16, 0x200A#16) := by decide

/-- R126's example. -/
theorem test_encU16 : (after .encU16 { refBlock with acc := 0xFFFC }).output = [0xFC, 0xFF] := by decide

/-- R127's example. -/
theorem test_encU32 : (after .encU32 { refBlock with acc := 0x12345678 }).output = [0x78, 0x56, 0x34, 0x12] := by decide

/-- V14's last action. -/
theorem test_encU32_full : let t := after .encU32 { tinyBlock with acc := 0xAABBCCDD, olen := 14 }
    (t.epos, t.olen, t.status) = (14#16, 14#16, 0x220A#16) := by decide

/-- R128's example. -/
theorem test_encU64 : (after .encU64 { refBlock with acc := 0x00124B002A9A7166 }).output =
    [0x66, 0x71, 0x9A, 0x2A, 0x00, 0x4B, 0x12, 0x00] := by decide

/-- R129's example: the payload lands after what is already there. -/
theorem test_encBuf : let t := after .encBuf { refBlock.setPayload [0xDE, 0xAD] with olen := 8 }
    (t.readBytes .ob 8 2, t.olen) = ([0xDE, 0xAD], 10#16) := by decide

/-- V79. -/
theorem test_encBuf_over : let t := after .encBuf { tinyBlock.setPayload [1, 2, 3] with olen := 14 }
    (t.epos, t.olen, t.status) = (14#16, 14#16, 0x240A#16) := by decide

/-! ### Bitfield utilities -/

/-- V19's second field. -/
theorem test_bfGet8 : let t := after .bfGet8 { refBlock with acc := 0x4B, foff := 3, fwid := 3 }
    (t.fval, t.status) = (1#64, 0x3001#16) := by decide

/-- V22. -/
theorem test_bfGet8_outside : let t := after .bfGet8 { refBlock with acc := 0xFF, foff := 6, fwid := 3 }
    (t.fval, t.status) = (0#64, 0x3016#16) := by decide

/-- V17. -/
theorem test_bfGet16 : (after .bfGet16 { refBlock with acc := 0x2A7C, foff := 2, fwid := 4 }).fval = 0xF#64 := by decide

/-- V24 (a) read with the 16-bit form: a field of width 0 at the edge. -/
theorem test_bfGet16_empty_field :
    (after .bfGet16 { refBlock with acc := 0xFFFF, foff := 16, fwid := 0 }).status = 0x3101#16 := by decide

/-- R142's example. -/
theorem test_bfTst8 : (after .bfTst8 { refBlock with acc := 0x28, foff := 5 }).fval = 1#64 := by decide

/-- V23. -/
theorem test_bfTst8_outside : (after .bfTst8 { refBlock with acc := 0xFF, foff := 8 }).status = 0x3216#16 := by decide

/-- V21. -/
theorem test_bfTst16 : (after .bfTst16 { refBlock with acc := 0x2A7C, foff := 13 }).fval = 1#64 ∧
    (after .bfTst16 { refBlock with acc := 0x2A7C, foff := 12, fval := 7 }).fval = 0#64 := by decide

/-- V25. -/
theorem test_bfMake8 : let t := after .bfMake8 { refBlock with acc := 0x20, fval := 5, foff := 0, fwid := 3 }
    (t.acc, t.status) = (0x25#64, 0x3401#16) := by decide

/-- V27 and V28. -/
theorem test_bfMake8_refused :
    (after .bfMake8 { refBlock with acc := 0x20, fval := 8, foff := 0, fwid := 3 }).status = 0x3416#16 ∧
    (after .bfMake8 { refBlock with acc := 0x24, fval := 1, foff := 0, fwid := 3 }).status = 0x3416#16 := by decide

/-- V26. -/
theorem test_bfMake16 : (after .bfMake16 { refBlock with acc := 0x0041, fval := 22, foff := 9, fwid := 7 }).acc =
    0x2C41#64 := by decide

/-! ### Control words -/

/-- S1 with V31's reserved bits. -/
theorem test_decFc : let t := after .decFc (refBlock.hostLoad [0x7C, 0xEA])
    (t.fc, t.cur, t.status) = (0x2A7C#16, 2#16, 0x4001#16) := by decide

/-- S1: the nine values of the source's example. -/
theorem test_views_of_s1 : let fc := 0x2A7C#16
    (frameType fc, protocolVersion fc, discoverRoute fc, multicast fc, security fc) =
      (.data, 15, .enable, false, true) ∧
    (sourceRoute fc, destIeee fc, srcIeee fc, endDeviceInitiator fc) = (false, true, false, true) := by decide

/-- S4, R154 and R155. -/
theorem test_views_of_bytes :
    (mcMode 0xFF#8, nonMemberRadius 0xFF#8, maxMemberRadius 0xFF#8) = (.reserved, 7, 7) ∧
    (mcMode 0x4B#8, nonMemberRadius 0x4B#8, maxMemberRadius 0x4B#8) = (.member, 1, 3) ∧
    (securityLevel 0x2D#8, keyIdentifier 0x2D#8, extendedNonce 0x2D#8) = (5, .network, true) := by decide

/-- R176's example. -/
theorem test_cmdClass : let c := Config.ref someTable
    (cmdClass c 0x00#8, cmdClass c 0x01#8, cmdClass c 0x0C#8, cmdClass c 0x0D#8) =
      (.reserved, .known, .known, .reserved) := by decide

/-- S3, read as addresses (R93). -/
theorem test_relayAddress : let t := after .decSrs (refBlock.hostLoad [0x01, 0x00, 0xCD, 0xAB, 0x07])
    (t.relayAddress 0, t.relayAddress 1) = (some 0xABCD#16, none) := by decide

/-- R148's example. -/
theorem test_encFc : (after .encFc { refBlock with fc := 0x2A7C }).output = [0x7C, 0x2A] := by decide

/-- V80 (a). -/
theorem test_encFc_full : (after .encFc { tinyBlock with olen := 15 }).status = 0x500A#16 := by decide

/-- V33. -/
theorem test_decMc : let t := after .decMc (refBlock.hostLoad [0xFF])
    (t.mc, t.cur, t.status) = (0xFF#8, 1#16, 0x4101#16) := by decide

/-- V34. -/
theorem test_encMc : (after .encMc { refBlock with mc := 0x4B }).output = [0x4B] := by decide

/-- V35. -/
theorem test_decSc : let t := after .decSc (refBlock.hostLoad [0xE8])
    (t.scr, t.cur, t.status) = (0x28#8, 1#16, 0x6001#16) := by decide

/-- R152's example. -/
theorem test_encSc : (after .encSc { refBlock with scr := 0x28 }).output = [0x28] := by decide

/-- V64 (a). -/
theorem test_decCid : let t := after .decCid (refBlock.hostLoad [0x08, 0x61])
    (t.cid, t.cur, t.status) = (8#8, 1#16, 0x4401#16) := by decide

/-- V64 (e). -/
theorem test_encCid : (after .encCid { refBlock with cid := 8 }).output = [0x08] := by decide

/-! ### NWK frames -/

/-- The 31 bytes `A` of 95_test_vectors.md section 2.4. -/
def bytesA : List Byte :=
  [0x08, 0x1D, 0x34, 0x12, 0x78, 0x56, 0x0A, 0x2A, 0x08, 0x07, 0x06, 0x05, 0x04, 0x03, 0x02, 0x01,
   0x18, 0x17, 0x16, 0x15, 0x14, 0x13, 0x12, 0x11, 0x4B, 0x02, 0x01, 0xAA, 0xAA, 0xBB, 0xBB]

/-- The 16 bytes of S2. -/
def bytesS2 : List Byte :=
  [0x09, 0x12, 0xFC, 0xFF, 0x00, 0x00, 0x08, 0xBF, 0x66, 0x71, 0x9A, 0x2A, 0x00, 0x4B, 0x12, 0x00]

/-- The 12 bytes `D`. -/
def bytesD : List Byte := [0x48, 0x00, 0x34, 0x12, 0x78, 0x56, 0x1E, 0x2A, 0xDE, 0xAD, 0xBE, 0xEF]

/-- The 21 bytes `C`. -/
def bytesC : List Byte :=
  [0x09, 0x10, 0xFC, 0xFF, 0x00, 0x00, 0x01, 0xBF, 0x66, 0x71, 0x9A, 0x2A, 0x00, 0x4B, 0x12, 0x00,
   0x08, 0x61, 0x34, 0x12, 0x70]

/-- V43's registers, written by the host (V44). -/
def registersA : State :=
  { refBlock with fc := 0x1D08, dst := 0x1234, src := 0x5678, radius := 10, seq := 42, dieee := 0x0102030405060708,
                  sieee := 0x1112131415161718, mc := 0x4B, rcnt := 2, ridx := 1 }.setRelay [0xAA, 0xAA, 0xBB, 0xBB]

/-- S3. -/
theorem test_decSrs : let t := after .decSrs (refBlock.hostLoad [0x04, 0x03, 0xFF, 0xFF, 0xFF, 0xFF])
    (t.rcnt, t.ridx, t.relay, t.cur) = (4#8, 3#8, [0xFF, 0xFF, 0xFF, 0xFF], 6#16) := by decide

/-- V40 (a). -/
theorem test_decSrs_over : let t := after .decSrs (tinyBlock.hostLoad [0x02, 0x00, 0x11, 0x11, 0x22, 0x22, 0x33])
    (t.epos, t.rlen, t.status) = (2#16, 0#16, 0x420A#16) := by decide

/-- V81 (c). -/
theorem test_encSrs : (after .encSrs ({ refBlock with ridx := 9 }.setRelay [1, 2, 3])).output = [0, 9, 1, 2, 3] := by
  decide

/-- V82 (a). -/
theorem test_encSrs_over :
    let t := after .encSrs ({ tinyBlock with rcnt := 1, olen := 12 }.setRelay [0xCD, 0xAB, 1, 2])
    (t.epos, t.olen, t.status) = (14#16, 12#16, 0x520A#16) := by decide

/-- V43. -/
theorem test_decHdr_all_flags : let t := after .decHdr (refBlock.hostLoad bytesA)
    (t.fc, t.dst, t.src, t.radius, t.seq) = (0x1D08#16, 0x1234#16, 0x5678#16, 10#8, 42#8) ∧
    (t.dieee, t.sieee, t.mc) = (0x0102030405060708#64, 0x1112131415161718#64, 0x4B#8) ∧
    (t.rcnt, t.ridx, t.relay, t.cur) = (2#8, 1#8, [0xAA, 0xAA, 0xBB, 0xBB], 31#16) := by decide

/-- V84. -/
theorem test_decHdr_short : let t := after .decHdr (refBlock.hostLoad (bytesS2.take 15))
    (t.epos, t.cur, t.status) = (8#16, 0#16, 0x4306#16) := by decide

/-- V44. -/
theorem test_encHdr : (after .encHdr registersA).output = bytesA := by decide

/-- V82 (d). -/
theorem test_encHdr_over : let t := after .encHdr { tinyBlock with fc := 0x1808 }
    (t.epos, t.olen, t.status) = (16#16, 0#16, 0x530A#16) := by decide

/-- V46. -/
theorem test_decFrm_command : let t := after .decFrm (refBlock.hostLoad bytesC)
    (t.fc, t.sieee, t.cid, t.payload) = (0x1009#16, 0x00124B002A9A7166#64, 8#8, [0x61, 0x34, 0x12, 0x70]) ∧
    (t.cur, t.status) = (21#16, 0x4501#16) := by decide

/-- V42: nothing of the header is committed. -/
theorem test_decFrm_no_identifier : let t := after .decFrm (refBlock.hostLoad bytesS2)
    (t.fc, t.dst, t.epos, t.cur, t.status) = (0#16, 0#16, 16#16, 0#16, 0x4506#16) := by decide

/-- V57's registers. -/
def registersC : State :=
  { refBlock with fc := 0x1009, dst := 0xFFFC, radius := 1, seq := 191, sieee := 0x00124B002A9A7166,
                  dieee := 0x9999, cid := 8 }.setPayload [0x61, 0x34, 0x12, 0x70]

/-- V57: a register whose flag is clear is ignored. -/
theorem test_encFrm_command : (after .encFrm registersC).output = bytesC := by decide

/-- V59 (a). -/
theorem test_encFrm_over : let t := after .encFrm { tinyBlock with fc := 0x1009, sieee := 1, cid := 8 }
    (t.epos, t.olen, t.status) = (16#16, 0#16, 0x550A#16) := by decide

/-- V45, run as its wire row. -/
theorem test_nwkData : let t := after (.nwkData 0x0048#16) (refBlock.hostLoad bytesD)
    (t.fc, t.dst, t.cid, t.payload) = (0x0048#16, 0x1234#16, 0#8, [0xDE, 0xAD, 0xBE, 0xEF]) ∧
    (t.cur, t.status) = (12#16, 0x4501#16) := by decide

/-- V54: the source-route subframe takes the payload. -/
theorem test_nwkData_source_routed :
    let t := after (.nwkData 0x0448#16) (refBlock.hostLoad
      [0x48, 0x04, 0x34, 0x12, 0x78, 0x56, 0x1E, 0x2A, 0x01, 0x00, 0xCD, 0xAB, 0xDE, 0xAD, 0xBE, 0xEF])
    (t.rcnt, t.relay, t.plen, t.cur) = (1#8, [0xCD, 0xAB, 0xDE, 0xAD, 0xBE, 0xEF], 0#16, 16#16) := by decide

/-- V53 (b), run as its wire row. -/
theorem test_nwkCmd : let t := after (.nwkCmd 0x0009#16) (tinyBlock.hostLoad
      [0x09, 0x00, 0x34, 0x12, 0x78, 0x56, 0x1E, 0x2A, 0x08, 0xDE, 0xAD, 0xBE, 0xEF])
    (t.cid, t.payload, t.cur, t.status) = (8#8, [0xDE, 0xAD, 0xBE, 0xEF], 13#16, 0x4501#16) := by decide

/-- V47, run as its wire row. -/
theorem test_nwkRsvd : let t := after (.nwkRsvd 0x000A#16) (refBlock.hostLoad
      [0x0A, 0x00, 0x01, 0x00, 0x02, 0x00, 0x05, 0x07, 0xAA, 0xBB])
    (t.dst, t.cid, t.plen, t.cur, t.len) = (1#16, 0#8, 0#16, 8#16, 10#16) := by decide

/-- V48, run as its wire row. -/
theorem test_nwkInterPan : let t := after (.nwkInterPan 0x000B#16) (refBlock.hostLoad
      [0x0B, 0x00, 0x01, 0x00, 0x02, 0x00, 0x05, 0x07])
    (t.fc, t.seq, t.cur, t.status) = (0x000B#16, 7#8, 8#16, 0x4501#16) := by decide

/-- V63. -/
theorem test_txm_unknown :
    (after .txm { refBlock with fc := 0x0148, txr := .unicast }).txr = .unknown ∧
    (after .txm { refBlock with fc := 0x0088, txr := .unicast }).txr = .unknown := by decide

/-- R187: the inputs are the route, bit 8 and bit 11, in that order. -/
theorem test_txm_table : (after .txm { refBlock with fc := 0x0108 }).txr = someTable.suppress10 := by decide

/-! ### Security auxiliary header -/

/-- V68 (b). -/
theorem test_decAux : let t := after .decAux (refBlock.hostLoad
      [0x2D, 1, 0, 0, 0, 0x66, 0x71, 0x9A, 0x2A, 0x00, 0x4B, 0x12, 0x00, 5, 0xAA, 0xBB])
    (t.scr, t.fcnt, t.asrc, t.kseq, t.cur) = (0x2D#8, 1#32, 0x00124B002A9A7166#64, 5#8, 14#16) := by decide

/-- V69 (d). -/
theorem test_decAux_short : let t := after .decAux (refBlock.hostLoad
      [0x28, 1, 0, 0, 0, 0x66, 0x71, 0x9A, 0x2A, 0x00, 0x4B, 0x12, 0x00])
    (t.epos, t.cur, t.status) = (13#16, 0#16, 0x6106#16) := by decide

/-- V71 (a). -/
theorem test_encAux :
    (after .encAux { refBlock with scr := 0x08, fcnt := 0x00010203, kseq := 7, asrc := 0x1234 }).output =
      [0x08, 0x03, 0x02, 0x01, 0x00, 0x07] := by decide

/-- V72. -/
theorem test_encAux_over : let t := after .encAux { tinyBlock with scr := 0x28, olen := 3 }
    (t.epos, t.olen, t.status) = (16#16, 3#16, 0x710A#16) := by decide

/-! ### Host access -/

/-- V87's refused writes. -/
theorem test_refused_writes : let s := { tinyBlock.hostLoad [1, 2] with cur := 1 }
    (play (.setLen 0) s).len = 2#16 ∧ (play (.seek 3) s).cur = 1#16 ∧ (play (.set 0x1C#8 5) s).plen = 0#16 ∧
    (play (.setLen 33) s).len = 2#16 ∧ (play (.setLen 32) s).len = 32#16 := by decide

/-- V36: reserved bits of a write are dropped. -/
theorem test_reserved_bits_of_writes :
    (play (.set 0x10#8 0xFFFF) refBlock).readReg 0x10#8 = 0x3FFF#64 ∧
    (play (.set 0x20#8 0xFF) refBlock).readReg 0x20#8 = 0x3F#64 := by decide

/-- R20, R227: `SET` of register 0 starts the operation. -/
theorem test_set_op_starts : (play (.set 0x00#8 0x10) (refBlock.hostLoad [0xAB])).acc = 0xAB#64 := by decide

/-- R223, R260: `RESET` leaves `Failed` and keeps the parameters. -/
theorem test_reset_action : let t := play .reset { tinyBlock with phase := .failed, err := .badField, lop := 0x30#8 }
    (t.status, t.txr, t.cfg) = (0#16, .unknown, Config.tiny someTable) := by decide

/-- The word of a wire row placed by `withFetchWord` is what the next step runs. -/
theorem test_withFetchWord_frame : let t := stateOf (step (refBlock.withFetchWord 16 0x000A))
    (t.fc, t.cur, t.status) = (0x000A#16, 8#16, 0x4501#16) := by decide

/-- The code of an operation placed by `withFetchWord` is what the next step runs. -/
theorem test_withFetchWord_op : (stateOf (step (refBlock.withFetchWord 8 0x55))).output =
    [0, 0, 0, 0, 0, 0, 0, 0] := by decide

/-- R227 and R20: a step on `SET` truncates the value to the register's width. -/
theorem test_set_truncates : (play (.set 0x13#8 0x1FF) refBlock).radius = 0xFF#8 ∧
    (play (.set 0x21#8 0x100000002) refBlock).fcnt = 2#32 := by decide

/-- R103 and R102 on S1: the protocol version and the security flag. -/
theorem test_fieldNumber : fieldNumber .protocolVersion 0x2A7C#16 = 15 ∧ fieldNumber .security 0x2A7C#16 = 1 := by
  decide

/-! ### A witness for the hypotheses of every statement

One theorem per obligation that has hypotheses: concrete operands and states that meet them together, for each clause
at a boundary of its range. An obligation without hypotheses has no witness here. -/

theorem witness_DecodeOfEncodeIsTheInstruction :
    Instr.encFrm.wf = true ∧ (Instr.nwkData 0x3FFC#16).wf = true ∧ (Instr.nwkInterPan 0x0003#16).wf = true := by decide

theorem witness_RefusedCodesAreExactlyTheIllegalOnes :
    IllegalCode 0x02#8 ∧ IllegalCode 0x0F#8 ∧ IllegalCode 0x72#8 ∧ IllegalCode 0xFF#8 ∧
    ¬ IllegalCode 0x01#8 ∧ ¬ IllegalCode 0x10#8 ∧ ¬ IllegalCode 0x71#8 :=
  ⟨by decide, by decide, by decide, by decide, by decide, by decide, by decide⟩

theorem witness_StepRunsTheDecodedOperation :
    let s := { refBlock with pending := [.op 0x12#8, .oclr] }
    let t := { refBlock with pending := [.set 0x00#8 0xFFFFFFFFFFFFFF71#64] }
    (s.pending = .op 0x12#8 :: [.oclr] ∧ decode .op8 [0x12#8] = .ok (.decU32, [])) ∧
    (t.pending = .set 0x00#8 0xFFFFFFFFFFFFFF71#64 :: [] ∧
      (0x71#8).toNat = (0xFFFFFFFFFFFFFF71#64).toNat % 256 ∧
      decode .op8 [0x71#8] = .ok (.encAux, [])) := by decide

/-- Exactly the two bytes of the word are left. -/
theorem witness_DecFrmRunsTheRowOfTheFrameWord :
    let s := { refBlock.hostLoad bytesD with cur := 10 }
    s.cur.toNat + 2 ≤ s.len.toNat := by decide

theorem witness_IllegalCodeRaisesIllegalOp :
    let s := { refBlock with pending := [.op 0xFF#8] }
    let t := { refBlock with pending := [.set 0x00#8 0x102#64] }
    (s.pending = .op 0xFF#8 :: [] ∧ IllegalCode 0xFF#8 ∧ s.phase ≠ .failed) ∧
    (t.pending = .set 0x00#8 0x102#64 :: [] ∧ (0x02#8).toNat = (0x102#64).toNat % 256 ∧ IllegalCode 0x02#8 ∧
      t.phase ≠ .failed) := by decide

theorem witness_FailedIgnoresEveryCodeButClr :
    let s := { refBlock with phase := .failed, err := .badField, pending := [.op 0x99#8] }
    let t := { refBlock with phase := .failed, err := .badField, pending := [.oclr] }
    s.phase = .failed ∧ Instr.nop ≠ .clr ∧ 0x99#8 ≠ 0x01#8 ∧ s.pending = .op 0x99#8 :: [] ∧
    t.phase = .failed ∧ (∀ c, HostAction.oclr ≠ .op c) ∧ (∀ v, HostAction.oclr ≠ .set 0x00#8 v) ∧
    t.pending = .oclr :: [] :=
  ⟨by decide, by decide, by decide, by decide, by decide, nofun, nofun, by decide⟩

theorem witness_AcceptedOperationRecordsItsCode :
    Instr.decU8 ≠ .nop ∧ Instr.decU8 ≠ .clr ∧ refBlock.phase ≠ .failed ∧ ∃ t, exec .decU8 refBlock = .next t :=
  ⟨by decide, by decide, by decide, _, rfl⟩

theorem witness_FailureDiscardsEveryWrite :
    ∃ t, exec .decFrm (refBlock.hostLoad bytesS2) = .next t ∧ (refBlock.hostLoad bytesS2).phase ≠ .failed ∧
      t.phase = .failed := ⟨_, rfl, by decide⟩

/-- A full input buffer, and an operation that consumes the last of it. -/
theorem witness_StepKeepsTheInvariant :
    let s := { tinyBlock.hostLoad (List.replicate 32 0xA5#8) with cur := 24, pending := [.op 0x13#8] }
    s.Inv ∧ ∃ t, step s = .next t ∧ t.phase = .done := ⟨by decide, _, rfl, by decide⟩

theorem witness_StepKeepsTheParameters : ∃ t, step { tinyBlock with pending := [.reset] } = .next t := ⟨_, rfl⟩

/-- A state that no run reaches: the conclusion is not empty of meaning. -/
theorem witness_MalformedTagIsNeverRaised :
    let s := { refBlock with err := .malformedTag }
    ∃ t, step s = .next t ∧ t.err = .malformedTag := ⟨_, rfl, by decide⟩

theorem witness_NoOperationWritesTheInputSide :
    ∃ t, exec .decFrm (refBlock.hostLoad bytesD) = .next t ∧ t.phase = .done := ⟨_, rfl, by decide⟩

theorem witness_OnlyDecodesMoveTheCursor :
    Instr.encFrm ∈ [Instr.nop, .clr, .encU8, .encU16, .encU32, .encU64, .encBuf, .bfGet8, .bfGet16, .bfTst8, .bfTst16,
      .bfMake8, .bfMake16, .txm, .encFc, .encMc, .encSrs, .encHdr, .encCid, .encFrm, .encSc, .encAux] ∧
    ∃ t, exec .encFrm registersC = .next t ∧ t.phase = .done := ⟨by decide, _, rfl, by decide⟩

theorem witness_OnlyEncodesWriteTheOutput :
    Instr.decFrm ∉ [Instr.encU8, .encU16, .encU32, .encU64, .encBuf, .encFc, .encMc, .encSrs, .encHdr, .encCid, .encFrm,
      .encSc, .encAux] ∧
    ∃ t, exec .decFrm (refBlock.hostLoad bytesD) = .next t ∧ t.phase = .done := ⟨by decide, _, rfl, by decide⟩

/-- As many bytes as the widest takes; one byte too few for it. -/
theorem witness_IntegerDecodesTakeLittleEndian :
    let ok := { refBlock.hostLoad bytesD with cur := 4 }
    let short := { refBlock.hostLoad bytesD with cur := 5 }
    (Instr.decU64, 0x13#8, 8) ∈
      [(Instr.decU8, 0x10#8, 1), (.decU16, 0x11#8, 2), (.decU32, 0x12#8, 4), (.decU64, 0x13#8, 8)] ∧ ok.phase ≠ .failed ∧
    ok.cur.toNat + 8 ≤ ok.len.toNat ∧ short.phase ≠ .failed ∧ short.len.toNat - short.cur.toNat < 8 := by decide

theorem witness_DecBufTakesTheRestOrFails :
    let full := tinyBlock.hostLoad [1, 2, 3, 4]
    let past := tinyBlock.hostLoad [1, 2, 3, 4, 5]
    full.phase ≠ .failed ∧ full.len.toNat - full.cur.toNat ≤ full.cfg.payloadCap ∧
    past.phase ≠ .failed ∧ past.cfg.payloadCap < past.len.toNat - past.cur.toNat := by decide

theorem witness_IntegerEncodesAppendTheLowBytes :
    let full := { tinyBlock with olen := 12 }
    let past := { tinyBlock with olen := 13 }
    (Instr.encU32, 0x22#8, 4) ∈
      [(Instr.encU8, 0x20#8, 1), (.encU16, 0x21#8, 2), (.encU32, 0x22#8, 4), (.encU64, 0x23#8, 8)] ∧ full.phase ≠ .failed ∧
    full.olen.toNat + 4 ≤ full.cfg.obCap ∧ past.phase ≠ .failed ∧ past.cfg.obCap < past.olen.toNat + 4 := by decide

theorem witness_EncBufAppendsThePayload :
    let full := { tinyBlock.setPayload [1, 2, 3] with olen := 13 }
    let past := { tinyBlock.setPayload [1, 2, 3] with olen := 14 }
    full.phase ≠ .failed ∧ full.olen.toNat + full.plen.toNat ≤ full.cfg.obCap ∧
    past.phase ≠ .failed ∧ past.cfg.obCap < past.olen.toNat + past.plen.toNat := by decide

theorem witness_IntegerRoundTrip :
    let s := { tinyBlock with acc := 0xFFFFFFFF }
    (Instr.encU32, Instr.decU32, 4) ∈
      [(Instr.encU8, Instr.decU8, 1), (.encU16, .decU16, 2), (.encU32, .decU32, 4), (.encU64, .decU64, 8)] ∧
    s.phase ≠ .failed ∧ s.olen = 0 ∧ 4 ≤ s.cfg.obCap ∧ 4 ≤ s.cfg.ibCap ∧ s.acc.toNat < 256 ^ 4 := by decide

/-- The last four bytes of the scope, decoded first; a payload that fills TINY's buffer. -/
theorem witness_IntegerRoundTrip_decode_first :
    let s := { tinyBlock.hostLoad bytesD with cur := 8 }
    let p := tinyBlock.setPayload [1, 2, 3, 4]
    (s.phase ≠ .failed ∧ s.olen = 0 ∧ 4 ≤ s.cfg.obCap ∧ s.cur.toNat + 4 ≤ s.len.toNat) ∧
    (p.phase ≠ .failed ∧ p.olen = 0 ∧ p.plen.toNat ≤ p.cfg.payloadCap ∧ p.plen.toNat ≤ p.cfg.obCap ∧
      p.plen.toNat ≤ p.cfg.ibCap) := by decide

theorem witness_ClrReturnsToIdleAndNopChangesNothing :
    { refBlock with phase := .failed, err := .badField }.phase = .failed ∧ Instr.nop ≠ .clr := by decide

theorem witness_BitfieldGetExtractsTheField :
    let inside := { refBlock with acc := 0xFF, foff := 5, fwid := 3 }
    let outside := { refBlock with acc := 0xFF, foff := 6, fwid := 3 }
    (Instr.bfGet8, 0x30#8, 8) ∈ [(Instr.bfGet8, 0x30#8, 8), (.bfGet16, 0x31#8, 16)] ∧ inside.phase ≠ .failed ∧
    inside.foff.toNat + inside.fwid.toNat ≤ 8 ∧ outside.phase ≠ .failed ∧
    8 < outside.foff.toNat + outside.fwid.toNat := by decide

theorem witness_BitfieldTestReadsOneBit :
    let inside := { refBlock with acc := 0xFF, foff := 15 }
    let outside := { refBlock with acc := 0xFF, foff := 16 }
    (Instr.bfTst16, 0x33#8, 16) ∈ [(Instr.bfTst8, 0x32#8, 8), (.bfTst16, 0x33#8, 16)] ∧ inside.phase ≠ .failed ∧ inside.foff.toNat < 16 ∧
    outside.phase ≠ .failed ∧ 16 ≤ outside.foff.toNat := by decide

/-- A value that just fits; then each of the three reasons to refuse. -/
theorem witness_BitfieldMakeBuildsTheWord :
    let ok := { refBlock with acc := 0x41, fval := 127, foff := 9, fwid := 7 }
    let outside := { refBlock with acc := 0x41, fval := 127, foff := 10, fwid := 7 }
    let wide := { refBlock with acc := 0x41, fval := 128, foff := 9, fwid := 7 }
    let flagged := { refBlock with acc := 0x8041, fval := 127, foff := 9, fwid := 7 }
    (Instr.bfMake16, 0x35#8, 16) ∈ [(Instr.bfMake8, 0x34#8, 8), (.bfMake16, 0x35#8, 16)] ∧ ok.phase ≠ .failed ∧
    (ok.foff.toNat + ok.fwid.toNat ≤ 16 ∧ ok.fval.toNat < 2 ^ ok.fwid.toNat ∧
      ok.acc.toNat % 2 ^ 16 / 2 ^ ok.foff.toNat % 2 ^ ok.fwid.toNat = 0) ∧
    outside.phase ≠ .failed ∧ 16 < outside.foff.toNat + outside.fwid.toNat ∧
    wide.phase ≠ .failed ∧ 2 ^ wide.fwid.toNat ≤ wide.fval.toNat ∧
    flagged.phase ≠ .failed ∧ flagged.acc.toNat % 2 ^ 16 / 2 ^ flagged.foff.toNat % 2 ^ flagged.fwid.toNat ≠ 0 := by
  decide

theorem witness_ViewsAgreeWithUtilities :
    let field := { refBlock with acc := 0xFFFF, foff := 2, fwid := 4 }
    let flag := { refBlock with acc := 0x20, foff := 5, fwid := 1 }
    (field.phase ≠ .failed ∧ (0xFFFF#16).toNat < 2 ^ fieldWordBits .protocolVersion ∧
      field.acc = (0xFFFF#16).setWidth 64 ∧ field.foff.toNat = fieldOffset .protocolVersion ∧
      field.fwid.toNat = fieldWidth .protocolVersion) ∧
    (flag.phase ≠ .failed ∧ (0x20#16).toNat < 2 ^ fieldWordBits .extendedNonce ∧
      flag.acc = (0x20#16).setWidth 64 ∧ flag.foff.toNat = fieldOffset .extendedNonce ∧
      flag.fwid.toNat = fieldWidth .extendedNonce ∧ fieldWidth .extendedNonce = 1) := by decide

theorem witness_DecFcDropsReservedBits :
    let ok := refBlock.hostLoad [0xFF, 0xFF]
    let short := refBlock.hostLoad [0xFF]
    ok.phase ≠ .failed ∧ ok.cur.toNat + 2 ≤ ok.len.toNat ∧
    short.phase ≠ .failed ∧ short.len.toNat - short.cur.toNat < 2 := by decide

theorem witness_OneByteDecodesKeepTheByte :
    let ok := refBlock.hostLoad [0xFF]
    ok.phase ≠ .failed ∧ ok.cur.toNat + 1 ≤ ok.len.toNat ∧
    refBlock.phase ≠ .failed ∧ refBlock.len.toNat - refBlock.cur.toNat < 1 := by decide

/-- Both clauses of `EncodesFields`: the word just fits; it starts one byte too late. -/
theorem witness_ControlWordEncodesAppendTheRegister :
    let full := { tinyBlock with olen := 14 }
    let past := { tinyBlock with olen := 15 }
    full.phase ≠ .failed ∧ full.olen.toNat + [wireBytes 2 full.fc.toNat].flatten.length ≤ full.cfg.obCap ∧
    past.phase ≠ .failed ∧
    firstUnfit past.cfg.obCap past.olen.toNat ([wireBytes 2 past.fc.toNat].map List.length) = some 15 := by decide

theorem witness_ControlWordRoundTrip :
    let s := { tinyBlock with fc := 0x3FFF, scr := 0x3F, mc := 0xFF }
    let t := tinyBlock.hostLoad [0xFF, 0xFF]
    (s.phase ≠ .failed ∧ s.olen = 0 ∧ 2 ≤ s.cfg.obCap ∧ 2 ≤ s.cfg.ibCap ∧ s.fc.toNat ≤ 0x3FFF ∧
      s.scr.toNat ≤ 0x3F) ∧
    (t.phase ≠ .failed ∧ t.olen = 0 ∧ 2 ≤ t.cfg.obCap ∧ t.cur.toNat + 2 ≤ t.len.toNat) := by decide

theorem witness_DecSrsTakesCountIndexAndRest :
    let full := tinyBlock.hostLoad [2, 0, 1, 2, 3, 4]
    let one := tinyBlock.hostLoad [2]
    let past := tinyBlock.hostLoad [2, 0, 1, 2, 3, 4, 5]
    (full.phase ≠ .failed ∧ full.cur.toNat + 2 ≤ full.len.toNat ∧
      full.len.toNat - full.cur.toNat - 2 ≤ full.cfg.relayCap) ∧
    (tinyBlock.phase ≠ .failed ∧ tinyBlock.len.toNat ≤ tinyBlock.cur.toNat) ∧
    (one.phase ≠ .failed ∧ one.len.toNat = one.cur.toNat + 1) ∧
    (past.phase ≠ .failed ∧ past.cfg.relayCap + 2 < past.len.toNat - past.cur.toNat) := by decide

theorem witness_EncSrsAppendsCountIndexAndList :
    let full := { tinyBlock.setRelay [1, 2, 3, 4] with olen := 10 }
    let past := { tinyBlock.setRelay [1, 2, 3, 4] with olen := 11 }
    full.phase ≠ .failed ∧ full.olen.toNat + full.subframeFields.flatten.length ≤ full.cfg.obCap ∧
    past.phase ≠ .failed ∧
    firstUnfit past.cfg.obCap past.olen.toNat (past.subframeFields.map List.length) = some 13 := by decide

/-- The shortest header fills the scope. -/
theorem witness_DecHdrReadsEveryField :
    let s := refBlock.hostLoad (bytesD.take 8)
    s.phase ≠ .failed ∧ bit s.nextFc 10 = 0 ∧ s.cur.toNat + headerLength s.nextFc ≤ s.len.toNat := by decide

/-- The longest header, with a relay list that fills the buffer. -/
theorem witness_DecHdrReadsSourceRoute :
    let s := tinyBlock.hostLoad bytesA
    s.phase ≠ .failed ∧ bit s.nextFc 10 = 1 ∧ s.cur.toNat + headerLength s.nextFc + 2 ≤ s.len.toNat ∧
    s.len.toNat - (s.cur.toNat + headerLength s.nextFc + 2) ≤ s.cfg.relayCap := by decide

/-- S2 cut one byte before its source IEEE address ends; `A` with one byte more than a relay list of TINY holds. -/
theorem witness_HeaderFailsAtTheFirstBadField :
    let short := refBlock.hostLoad (bytesS2.take 15)
    let past := tinyBlock.hostLoad (bytesA ++ [0xCC])
    (short.phase ≠ .failed ∧ firstUnfit short.len.toNat short.cur.toNat (headerWidths short.nextFc) = some 8) ∧
    (past.phase ≠ .failed ∧ firstUnfit past.len.toNat past.cur.toNat (headerWidths past.nextFc) = none ∧
      bit past.nextFc 10 = 1 ∧
      past.cfg.relayCap < past.len.toNat - (past.cur.toNat + headerLength past.nextFc + 2)) := by decide

theorem witness_EncHdrAppendsThePresentFields :
    let full := { tinyBlock with fc := 0x0808 }
    let past := { tinyBlock with fc := 0x1808 }
    full.phase ≠ .failed ∧ full.olen.toNat + full.headerFields.flatten.length ≤ full.cfg.obCap ∧
    past.phase ≠ .failed ∧
    firstUnfit past.cfg.obCap past.olen.toNat (past.headerFields.map List.length) = some 16 := by decide

theorem witness_ClearFlagMeansAbsentField :
    let s := { refBlock.hostLoad bytesC with dieee := 0x9999, mc := 0xFF, rcnt := 3 }
    s.phase ≠ .failed ∧
    (∃ t, exec .decHdr s = .next t ∧ t.phase = .done ∧ bit t.fc 11 = 0 ∧ bit t.fc 8 = 0 ∧ bit t.fc 10 = 0) ∧
    (∃ t, exec .decFrm s = .next t ∧ t.phase = .done ∧ bit t.fc 10 = 0 ∧ t.fc.toNat % 4 < 2) :=
  ⟨by decide, ⟨_, rfl, by decide⟩, ⟨_, rfl, by decide⟩⟩

/-- A payload that fills TINY's buffer; one byte more. -/
theorem witness_DecFrmDataTakesThePayload :
    let full := tinyBlock.hostLoad bytesD
    let past := tinyBlock.hostLoad (bytesD ++ [0])
    (full.phase ≠ .failed ∧ full.nextFc.toNat % 4 = 0 ∧ bit full.nextFc 10 = 0 ∧
      full.cur.toNat + headerLength full.nextFc ≤ full.len.toNat ∧
      full.len.toNat - (full.cur.toNat + headerLength full.nextFc) ≤ full.cfg.payloadCap) ∧
    (past.phase ≠ .failed ∧ past.nextFc.toNat % 4 = 0 ∧ bit past.nextFc 10 = 0 ∧
      past.cur.toNat + headerLength past.nextFc ≤ past.len.toNat ∧
      past.cfg.payloadCap < past.len.toNat - (past.cur.toNat + headerLength past.nextFc)) := by decide

/-- `C` on TINY; S2, which has no command identifier; `C` with one byte more. -/
theorem witness_DecFrmCommandTakesIdentifierAndPayload :
    let full := tinyBlock.hostLoad bytesC
    let none' := tinyBlock.hostLoad bytesS2
    let past := tinyBlock.hostLoad (bytesC ++ [0])
    (full.phase ≠ .failed ∧ full.nextFc.toNat % 4 = 1 ∧ bit full.nextFc 10 = 0 ∧
      full.cur.toNat + headerLength full.nextFc ≤ full.len.toNat ∧
      full.cur.toNat + headerLength full.nextFc + 1 ≤ full.len.toNat ∧
      full.len.toNat - (full.cur.toNat + headerLength full.nextFc + 1) ≤ full.cfg.payloadCap) ∧
    (none'.phase ≠ .failed ∧ none'.nextFc.toNat % 4 = 1 ∧ bit none'.nextFc 10 = 0 ∧
      none'.cur.toNat + headerLength none'.nextFc ≤ none'.len.toNat ∧
      none'.len.toNat = none'.cur.toNat + headerLength none'.nextFc) ∧
    (past.phase ≠ .failed ∧ past.nextFc.toNat % 4 = 1 ∧ bit past.nextFc 10 = 0 ∧
      past.cur.toNat + headerLength past.nextFc ≤ past.len.toNat ∧
      past.cfg.payloadCap + 1 < past.len.toNat - (past.cur.toNat + headerLength past.nextFc)) := by decide

theorem witness_DecFrmHeaderOnlyFrames :
    let rsvd := refBlock.hostLoad [0x0A, 0x00, 0x01, 0x00, 0x02, 0x00, 0x05, 0x07]
    let inter := refBlock.hostLoad [0x0B, 0x00, 0x01, 0x00, 0x02, 0x00, 0x05, 0x07, 0xAA]
    (rsvd.phase ≠ .failed ∧ bit rsvd.nextFc 10 = 0 ∧ rsvd.nextFc.toNat % 4 = 2 ∧
      rsvd.cur.toNat + headerLength rsvd.nextFc ≤ rsvd.len.toNat) ∧
    (inter.phase ≠ .failed ∧ bit inter.nextFc 10 = 0 ∧ inter.nextFc.toNat % 4 = 3 ∧
      inter.cur.toNat + headerLength inter.nextFc ≤ inter.len.toNat) := by decide

theorem witness_SourceRouteTakesTheWholeFrame :
    let data := tinyBlock.hostLoad bytesA
    let cmd := refBlock.hostLoad [0x09, 0x04, 0x34, 0x12, 0x78, 0x56, 0x1E, 0x2A, 0x00, 0x00]
    (data.phase ≠ .failed ∧ bit data.nextFc 10 = 1 ∧ data.nextFc.toNat % 4 ≠ 1 ∧
      data.cur.toNat + headerLength data.nextFc + 2 ≤ data.len.toNat ∧
      data.len.toNat - (data.cur.toNat + headerLength data.nextFc + 2) ≤ data.cfg.relayCap) ∧
    (cmd.phase ≠ .failed ∧ bit cmd.nextFc 10 = 1 ∧ cmd.nextFc.toNat % 4 = 1 ∧
      cmd.cur.toNat + headerLength cmd.nextFc + 2 ≤ cmd.len.toNat ∧
      cmd.len.toNat - (cmd.cur.toNat + headerLength cmd.nextFc + 2) ≤ cmd.cfg.relayCap) := by decide

theorem witness_EncFrmAppendsHeaderAndBody :
    let full := { tinyBlock.setPayload [1, 2, 3, 4] with fc := 0x0048, olen := 4 }
    let past := { tinyBlock.setPayload [1, 2, 3, 4] with fc := 0x0049, olen := 4 }
    full.phase ≠ .failed ∧ full.olen.toNat + full.frameFields.flatten.length ≤ full.cfg.obCap ∧
    past.phase ≠ .failed ∧
    firstUnfit past.cfg.obCap past.olen.toNat (past.frameFields.map List.length) = some 13 := by decide

/-- One state for each of the law's three cases. -/
theorem witness_FrameRoundTrip :
    (registersC.Inv ∧ registersC.phase ≠ .failed ∧ registersC.olen = 0 ∧
      registersC.frameFields.flatten.length ≤ registersC.cfg.obCap ∧
      registersC.frameFields.flatten.length ≤ registersC.cfg.ibCap ∧ bit registersC.fc 10 = 0) ∧
    (let s := { registersA with fc := 0x1D0A }
     s.Inv ∧ s.phase ≠ .failed ∧ s.olen = 0 ∧ s.frameFields.flatten.length ≤ s.cfg.obCap ∧
      s.frameFields.flatten.length ≤ s.cfg.ibCap ∧ 2 ≤ s.fc.toNat % 4) ∧
    (registersA.Inv ∧ registersA.phase ≠ .failed ∧ registersA.olen = 0 ∧
      registersA.frameFields.flatten.length ≤ registersA.cfg.obCap ∧
      registersA.frameFields.flatten.length ≤ registersA.cfg.ibCap ∧
      registersA.fc.toNat % 4 = 0 ∧ registersA.plen = 0) :=
  ⟨by decide, ⟨by decide, by decide⟩, by decide⟩

theorem witness_DecodeThenEncodeReproducesTheBytes :
    let s := refBlock.hostLoad bytesC
    (s.phase ≠ .failed ∧ s.cur = 0 ∧ s.olen = 0 ∧ s.len.toNat ≤ s.cfg.obCap) ∧
    ∃ t, exec .decFrm s = .next t ∧ t.phase = .done := ⟨by decide, _, rfl, by decide⟩

/-- A route with no meaning of its own; Enable with multicast. -/
theorem witness_TxmClassifies :
    let reserved := { refBlock with fc := 0x0088 }
    let group := { refBlock with fc := 0x0148 }
    reserved.phase ≠ .failed ∧ 2 ≤ reserved.fc.toNat / 64 % 4 ∧
    group.phase ≠ .failed ∧ group.fc.toNat / 64 % 4 = 1 ∧ bit group.fc 8 = 1 := by decide

/-- Every field present and nothing after it; the key sequence number missing. -/
theorem witness_DecAuxReadsEveryField :
    let ok := refBlock.hostLoad [0x2D, 1, 0, 0, 0, 0x66, 0x71, 0x9A, 0x2A, 0x00, 0x4B, 0x12, 0x00, 5]
    let short := refBlock.hostLoad [0x2D, 1, 0, 0, 0, 0x66, 0x71, 0x9A, 0x2A, 0x00, 0x4B, 0x12, 0x00]
    (ok.phase ≠ .failed ∧
      firstUnfit ok.len.toNat ok.cur.toNat (auxWidths (ok.readByte .ib ok.cur.toNat)) = none) ∧
    (short.phase ≠ .failed ∧
      firstUnfit short.len.toNat short.cur.toNat (auxWidths (short.readByte .ib short.cur.toNat)) = some 13) := by
  decide

theorem witness_EncAuxAppendsThePresentFields :
    let full := { tinyBlock with scr := 0x2D, olen := 2 }
    let past := { tinyBlock with scr := 0x2D, olen := 3 }
    full.phase ≠ .failed ∧ full.olen.toNat + full.auxFields.flatten.length ≤ full.cfg.obCap ∧
    past.phase ≠ .failed ∧
    firstUnfit past.cfg.obCap past.olen.toNat (past.auxFields.map List.length) = some 16 := by decide

/-- One state with both optional fields, one with neither. -/
theorem witness_DecAuxIsItsPartsInOrder :
    let both := refBlock.hostLoad [0x2D, 1, 0, 0, 0, 0x66, 0x71, 0x9A, 0x2A, 0x00, 0x4B, 0x12, 0x00, 5]
    let neither := refBlock.hostLoad [0x05, 1, 0, 0, 0]
    both.phase ≠ .failed ∧ neither.phase ≠ .failed ∧
    (∃ d, exec .decAux both = .next d ∧ d.phase = .done) ∧ (∃ d, exec .decAux neither = .next d ∧ d.phase = .done) :=
  ⟨by decide, by decide, ⟨_, rfl, by decide⟩, ⟨_, rfl, by decide⟩⟩

theorem witness_AuxRoundTrip :
    let s := { tinyBlock with scr := 0x2D, fcnt := 1, asrc := 0x00124B002A9A7166, kseq := 5 }
    s.scr.toNat < 0x40 ∧ s.phase ≠ .failed ∧ s.olen = 0 ∧ s.auxFields.flatten.length ≤ s.cfg.obCap ∧
    s.auxFields.flatten.length ≤ s.cfg.ibCap := by decide

theorem witness_AuxRoundTrip_decode_first :
    let s := tinyBlock.hostLoad [0xED, 1, 0, 0, 0, 0x66, 0x71, 0x9A, 0x2A, 0x00, 0x4B, 0x12, 0x00, 5]
    s.phase ≠ .failed ∧ s.olen = 0 ∧
    ∃ t, exec .decAux s = .next t ∧ t.phase = .done ∧ t.cur.toNat - s.cur.toNat ≤ s.cfg.obCap :=
  ⟨by decide, by decide, _, rfl, by decide⟩

theorem witness_LoadPlacesTheBytes :
    let full := List.replicate 32 0xA5#8
    let past := List.replicate 33 0xA5#8
    { tinyBlock with pending := [.load full] }.pending = .load full :: [] ∧ full.length ≤ tinyBlock.cfg.ibCap ∧
    { tinyBlock with pending := [.load past] }.pending = .load past :: [] ∧ tinyBlock.cfg.ibCap < past.length := by
  decide

theorem witness_CursorWritesAreChecked :
    { tinyBlock with pending := [.setLen 32] }.pending = .setLen 32 :: [] ∧
    { tinyBlock with pending := [.seek 0] }.pending = .seek 0 :: [] ∧
    { tinyBlock with pending := [.oclr] }.pending = .oclr :: [] ∧
    { tinyBlock with pending := [.set 0x03#8 0x10020#64] }.pending = .set 0x03#8 0x10020#64 :: [] ∧
    { tinyBlock with pending := [.set 0x04#8 0] }.pending = .set 0x04#8 0 :: [] ∧
    { tinyBlock with pending := [.set 0x05#8 9] }.pending = .set 0x05#8 9 :: [] := by decide

theorem witness_SetBufPlacesTheBytes :
    let full := List.replicate 4 0xA5#8
    let past := List.replicate 5 0xA5#8
    ({ tinyBlock with pending := [.setBuf .pl full] }.pending = .setBuf .pl full :: [] ∧
      full.length ≤ tinyBlock.cfg.payloadCap) ∧
    ({ tinyBlock with pending := [.setBuf .rl full] }.pending = .setBuf .rl full :: [] ∧
      full.length ≤ tinyBlock.cfg.relayCap) ∧
    ({ tinyBlock with pending := [.setBuf .pl past] }.pending = .setBuf .pl past :: [] ∧
      tinyBlock.cfg.payloadCap < past.length) ∧
    ({ tinyBlock with pending := [.setBuf .rl past] }.pending = .setBuf .rl past :: [] ∧
      tinyBlock.cfg.relayCap < past.length) ∧
    ({ tinyBlock with pending := [.setByte .ib 31 0xA5#8] }.pending = .setByte .ib 31 0xA5#8 :: [] ∧
      Space.ib ≠ .ob ∧ 31 < tinyBlock.cfg.cap .ib) ∧
    ({ tinyBlock with pending := [.setByte .rl 4 0xA5#8] }.pending = .setByte .rl 4 0xA5#8 :: [] ∧
      tinyBlock.cfg.cap .rl ≤ 4) := by decide

/-- A checked length at its capacity and one above it; a register that is truncated; a number with no register. -/
theorem witness_ReservedBitsOfWritesAreDropped :
    ({ tinyBlock with pending := [.set 0x21#8 0x100000001#64] }.pending = .set 0x21#8 0x100000001#64 :: [] ∧
      ((0x21#8).toNat, { tinyBlock with fcnt := 1 }) ∈
        State.written { tinyBlock with pending := [] } (0x100000001#64).toNat) ∧
    (4 % 65536 ≤ tinyBlock.cfg.payloadCap ∧ ¬ 5 % 65536 ≤ tinyBlock.cfg.relayCap) ∧
    ((0x0C#8).toNat, 4) ∈ refBlock.registerValues ∧
    (∀ p ∈ refBlock.registerValues, p.1 ≠ (0xFF#8).toNat) ∧
    { tinyBlock with pending := [.get 0x08#8] }.pending = .get 0x08#8 :: [] ∧
    { tinyBlock with pending := [.getByte .ob 0] }.pending = .getByte .ob 0 :: [] := by decide

theorem witness_RefusedWritesHaveNoEffect :
    (0x01#8).toNat ∈ [0x01, 0x02, 0x06, 0x07, 0x0C, 0x0D, 0x0E, 0x0F, 0x1D, 0x1E, 0x1F] ∧ 0x24 ≤ (0x24#8).toNat ∧
    tinyBlock.cfg.payloadCap < ((5#64).setWidth 16).toNat ∧ tinyBlock.cfg.relayCap < ((5#64).setWidth 16).toNat ∧
    HostAction.oclr ≠ .reset := by decide

theorem witness_ResetActionRestoresTheResetState :
    { tinyBlock with phase := .failed, pending := [.reset, .oclr] }.pending = .reset :: [.oclr] := by decide

/-- Each of the last three cases happens: appended output, and written payload and relay list. -/
theorem witness_OperationsWriteOnlyTheirOwnBytes :
    (∃ t, exec .encFrm registersC = .next t ∧ 0 < t.olen.toNat) ∧
    (∃ t, exec .decFrm (refBlock.hostLoad bytesD) = .next t ∧ 3 < t.plen.toNat) ∧
    (∃ t, exec .decFrm (refBlock.hostLoad bytesA) = .next t ∧ 3 < t.rlen.toNat) :=
  ⟨⟨_, rfl, by decide⟩, ⟨_, rfl, by decide⟩, ⟨_, rfl, by decide⟩⟩

end Sys2Proof.Tests
end

