-- ==== Sys2Proof/Proofs/Scope.lean ====
section
/-! PROOFS. The parameters never change (00_scope.md R6, 70_reset_and_hazards.md R261). A step is a host action, the
rejection of a code or an operation; an operation is one cycle around its pseudocode, and the pseudocode writes nothing
of the part of the state that `State.unwritten` collects. -/

namespace Sys2Proof.Machine

/-! ### What no pseudocode writes -/

/-- The part of the state that the pseudocode of every operation leaves alone: the model's own fields, the four status
fields (the operation cycle writes them, R21) and the input side (R24, R28, R44). -/
structure Unwritten where
  cfg : Config
  pending : List HostAction
  epoch : Nat
  phase : Phase
  err : ErrCode
  lop : Byte
  epos : Word16
  len : Word16
  foff : Byte
  fwid : Byte
  ib : Memory

/-- That part of a state. -/
def State.unwritten (s : State) : Unwritten where
  cfg := s.cfg
  pending := s.pending
  epoch := s.epoch
  phase := s.phase
  err := s.err
  lop := s.lop
  epos := s.epos
  len := s.len
  foff := s.foff
  fwid := s.fwid
  ib := s.ib

/-! ### The primitives of R13 -/

theorem State.take_unwritten {s t : State} {n v : Nat} (h : s.take n = .ok (v, t)) : t.unwritten = s.unwritten := by
  obtain ⟨-, -, rfl⟩ := State.take_eq_ok h
  rfl

theorem State.takeIf_unwritten {s t : State} {present : Bool} {n v : Nat} (h : s.takeIf present n = .ok (v, t)) :
    t.unwritten = s.unwritten := by
  cases present with
  | false => cases h; rfl
  | true => exact State.take_unwritten h

theorem State.takeRest_unwritten {s t : State} {cap : Nat} {b : List Byte} (h : s.takeRest cap = .ok (b, t)) :
    t.unwritten = s.unwritten := by
  obtain ⟨-, -, rfl⟩ := State.takeRest_eq_ok h
  rfl

theorem State.putSeq_unwritten {s t : State} {b : List Byte} (h : s.putSeq b = .ok t) :
    t.unwritten = s.unwritten := by
  obtain ⟨-, rfl⟩ := State.putSeq_eq_ok h
  rfl

theorem State.put_unwritten {s t : State} {n v : Nat} (h : s.put n v = .ok t) : t.unwritten = s.unwritten :=
  State.putSeq_unwritten h

theorem State.putIf_unwritten {s t : State} {present : Bool} {n v : Nat} (h : s.putIf present n v = .ok t) :
    t.unwritten = s.unwritten := by
  cases present with
  | false => cases h; rfl
  | true => exact State.put_unwritten h

/-! ### The utilities on words -/

theorem bitfieldGet_unwritten {w : Nat} {s t : State} (h : bitfieldGet w s = .ok t) :
    t.unwritten = s.unwritten := by
  unfold bitfieldGet at h
  split at h
  · cases h
  · cases h; rfl

theorem bitfieldTest_unwritten {w : Nat} {s t : State} (h : bitfieldTest w s = .ok t) :
    t.unwritten = s.unwritten := by
  unfold bitfieldTest at h
  split at h
  · cases h
  · cases h; rfl

theorem bitfieldMake_unwritten {w : Nat} {s t : State} (h : bitfieldMake w s = .ok t) :
    t.unwritten = s.unwritten := by
  unfold bitfieldMake at h
  split_ifs at h
  cases h
  rfl

theorem classify_unwritten {s t : State} (h : classify s = .ok t) : t.unwritten = s.unwritten := by
  cases h
  rfl

/-! ### Decodes: `Take`s, then commits to registers that are not in `Unwritten` -/

theorem decodeAcc_unwritten {n : Nat} {s t : State} (h : decodeAcc n s = .ok t) : t.unwritten = s.unwritten := by
  obtain ⟨⟨v, u⟩, hv, h⟩ := except_bind_ok h
  cases h
  exact (State.take_unwritten hv :)

theorem decodePayload_unwritten {s t : State} (h : decodePayload s = .ok t) : t.unwritten = s.unwritten := by
  obtain ⟨⟨p, u⟩, hp, h⟩ := except_bind_ok h
  cases h
  exact (State.takeRest_unwritten hp :)

theorem decodeFc_unwritten {s t : State} (h : decodeFc s = .ok t) : t.unwritten = s.unwritten := by
  obtain ⟨⟨w, u⟩, hw, h⟩ := except_bind_ok h
  cases h
  exact (State.take_unwritten hw :)

theorem decodeMc_unwritten {s t : State} (h : decodeMc s = .ok t) : t.unwritten = s.unwritten := by
  obtain ⟨⟨b, u⟩, hb, h⟩ := except_bind_ok h
  cases h
  exact (State.take_unwritten hb :)

theorem decodeSc_unwritten {s t : State} (h : decodeSc s = .ok t) : t.unwritten = s.unwritten := by
  obtain ⟨⟨b, u⟩, hb, h⟩ := except_bind_ok h
  cases h
  exact (State.take_unwritten hb :)

theorem decodeCid_unwritten {s t : State} (h : decodeCid s = .ok t) : t.unwritten = s.unwritten := by
  obtain ⟨⟨b, u⟩, hb, h⟩ := except_bind_ok h
  cases h
  exact (State.take_unwritten hb :)

theorem State.takeSubframe_unwritten {s t : State} {f : Subframe} (h : s.takeSubframe = .ok (f, t)) :
    t.unwritten = s.unwritten := by
  obtain ⟨⟨c, s1⟩, hc, h⟩ := except_bind_ok h
  obtain ⟨⟨i, s2⟩, hi, h⟩ := except_bind_ok h
  obtain ⟨⟨rl, s3⟩, hrl, h⟩ := except_bind_ok h
  cases h
  rw [State.takeRest_unwritten hrl, State.take_unwritten hi, State.take_unwritten hc]

theorem State.takeSubframeIf_unwritten {s t : State} {present : Bool} {f : Subframe}
    (h : s.takeSubframeIf present = .ok (f, t)) : t.unwritten = s.unwritten := by
  cases present with
  | false => cases h; rfl
  | true => exact State.takeSubframe_unwritten h

theorem decodeSubframe_unwritten {s t : State} (h : decodeSubframe s = .ok t) : t.unwritten = s.unwritten := by
  obtain ⟨⟨f, u⟩, hf, h⟩ := except_bind_ok h
  cases h
  exact (State.takeSubframe_unwritten hf :)

theorem State.takeHeaderAfter_unwritten {fc : Word16} {s t : State} {hd : Header}
    (h : s.takeHeaderAfter fc = .ok (hd, t)) : t.unwritten = s.unwritten := by
  obtain ⟨⟨d, s1⟩, hdst, h⟩ := except_bind_ok h
  obtain ⟨⟨a, s2⟩, hsrc, h⟩ := except_bind_ok h
  obtain ⟨⟨r, s3⟩, hradius, h⟩ := except_bind_ok h
  obtain ⟨⟨q, s4⟩, hseq, h⟩ := except_bind_ok h
  obtain ⟨⟨di, s5⟩, hdieee, h⟩ := except_bind_ok h
  obtain ⟨⟨si, s6⟩, hsieee, h⟩ := except_bind_ok h
  obtain ⟨⟨m, s7⟩, hmc, h⟩ := except_bind_ok h
  obtain ⟨⟨f, s8⟩, hsub, h⟩ := except_bind_ok h
  cases h
  rw [State.takeSubframeIf_unwritten hsub, State.takeIf_unwritten hmc, State.takeIf_unwritten hsieee,
    State.takeIf_unwritten hdieee, State.take_unwritten hseq, State.take_unwritten hradius,
    State.take_unwritten hsrc, State.take_unwritten hdst]

theorem State.takeHeader_unwritten {s t : State} {hd : Header} (h : s.takeHeader = .ok (hd, t)) :
    t.unwritten = s.unwritten := by
  obtain ⟨⟨w, u⟩, hw, h⟩ := except_bind_ok h
  rw [State.takeHeaderAfter_unwritten h, State.take_unwritten hw]

theorem decodeHeader_unwritten {s t : State} (h : decodeHeader s = .ok t) : t.unwritten = s.unwritten := by
  obtain ⟨⟨hd, u⟩, hhd, h⟩ := except_bind_ok h
  cases h
  exact (State.takeHeader_unwritten hhd :)

theorem decodeArmData_unwritten {s t : State} (h : decodeArmData s = .ok t) : t.unwritten = s.unwritten := by
  obtain ⟨⟨p, u⟩, hp, h⟩ := except_bind_ok h
  cases h
  exact (State.takeRest_unwritten hp :)

theorem decodeArmCommand_unwritten {s t : State} (h : decodeArmCommand s = .ok t) : t.unwritten = s.unwritten := by
  obtain ⟨⟨c, s1⟩, hc, h⟩ := except_bind_ok h
  obtain ⟨⟨p, s2⟩, hp, h⟩ := except_bind_ok h
  cases h
  exact (State.takeRest_unwritten hp).trans (State.take_unwritten hc)

theorem decodeArmReserved_unwritten {s t : State} (h : decodeArmReserved s = .ok t) :
    t.unwritten = s.unwritten := by
  cases h
  rfl

theorem decodeArmInterPan_unwritten {s t : State} (h : decodeArmInterPan s = .ok t) :
    t.unwritten = s.unwritten := by
  cases h
  rfl

theorem decodeArm_unwritten {fc : Word16} {s t : State} (h : decodeArm fc s = .ok t) :
    t.unwritten = s.unwritten := by
  unfold decodeArm at h
  split at h
  · exact decodeArmData_unwritten h
  · exact decodeArmCommand_unwritten h
  · exact decodeArmReserved_unwritten h
  · exact decodeArmInterPan_unwritten h

theorem decodeFrame_unwritten {s t : State} (h : decodeFrame s = .ok t) : t.unwritten = s.unwritten := by
  obtain ⟨⟨hd, u⟩, hhd, h⟩ := except_bind_ok h
  exact (decodeArm_unwritten h).trans (State.takeHeader_unwritten hhd :)

/-- A wire row (R105) with an arm that keeps this part keeps it too. -/
theorem decodeFrameAs_unwritten {fc : Word16} {arm : State → Except Failure State} {s t : State}
    (harm : ∀ {u : State}, arm u = .ok t → t.unwritten = u.unwritten) (h : decodeFrameAs fc arm s = .ok t) :
    t.unwritten = s.unwritten := by
  obtain ⟨⟨w, s1⟩, hw, h⟩ := except_bind_ok h
  obtain ⟨⟨hd, s2⟩, hhd, h⟩ := except_bind_ok h
  exact (harm h).trans ((State.takeHeaderAfter_unwritten hhd).trans (State.take_unwritten hw))

theorem decodeAux_unwritten {s t : State} (h : decodeAux s = .ok t) : t.unwritten = s.unwritten := by
  obtain ⟨⟨b, s1⟩, hscr, h⟩ := except_bind_ok h
  obtain ⟨⟨f, s2⟩, hfcnt, h⟩ := except_bind_ok h
  obtain ⟨⟨a, s3⟩, hasrc, h⟩ := except_bind_ok h
  obtain ⟨⟨k, s4⟩, hkseq, h⟩ := except_bind_ok h
  cases h
  calc s4.unwritten
      _ = s3.unwritten := State.takeIf_unwritten hkseq
      _ = s2.unwritten := State.takeIf_unwritten hasrc
      _ = s1.unwritten := State.take_unwritten hfcnt
      _ = s.unwritten := State.take_unwritten hscr

/-! ### Encodes: sequences of `Put`s -/

theorem State.putSubframe_unwritten {s t : State} (h : s.putSubframe = .ok t) : t.unwritten = s.unwritten := by
  obtain ⟨s1, hcount, h⟩ := except_bind_ok h
  obtain ⟨s2, hindex, h⟩ := except_bind_ok h
  rw [State.putSeq_unwritten h, State.put_unwritten hindex, State.put_unwritten hcount]

theorem encodeHeader_unwritten {s t : State} (h : encodeHeader s = .ok t) : t.unwritten = s.unwritten := by
  obtain ⟨s1, hfc, h⟩ := except_bind_ok h
  obtain ⟨s2, hdst, h⟩ := except_bind_ok h
  obtain ⟨s3, hsrc, h⟩ := except_bind_ok h
  obtain ⟨s4, hradius, h⟩ := except_bind_ok h
  obtain ⟨s5, hseq, h⟩ := except_bind_ok h
  obtain ⟨s6, hdieee, h⟩ := except_bind_ok h
  obtain ⟨s7, hsieee, h⟩ := except_bind_ok h
  obtain ⟨s8, hmc, h⟩ := except_bind_ok h
  have hfields : s8.unwritten = s.unwritten := by
    rw [State.putIf_unwritten hmc, State.putIf_unwritten hsieee, State.putIf_unwritten hdieee,
      State.put_unwritten hseq, State.put_unwritten hradius, State.put_unwritten hsrc, State.put_unwritten hdst,
      State.put_unwritten hfc]
  split at h
  · exact (State.putSubframe_unwritten h).trans hfields
  · cases h; exact hfields

theorem encodeArmCommand_unwritten {s t : State} (h : encodeArmCommand s = .ok t) : t.unwritten = s.unwritten := by
  obtain ⟨u, hcid, h⟩ := except_bind_ok h
  rw [State.putSeq_unwritten h, State.put_unwritten hcid]

theorem encodeArm_unwritten {fc : Word16} {s t : State} (h : encodeArm fc s = .ok t) :
    t.unwritten = s.unwritten := by
  unfold encodeArm at h
  split at h
  · exact State.putSeq_unwritten h
  · exact encodeArmCommand_unwritten h
  · cases h; rfl
  · cases h; rfl

theorem encodeFrame_unwritten {s t : State} (h : encodeFrame s = .ok t) : t.unwritten = s.unwritten := by
  obtain ⟨u, hhd, h⟩ := except_bind_ok h
  rw [encodeArm_unwritten h, encodeHeader_unwritten hhd]

theorem encodeAux_unwritten {s t : State} (h : encodeAux s = .ok t) : t.unwritten = s.unwritten := by
  obtain ⟨s1, hscr, h⟩ := except_bind_ok h
  obtain ⟨s2, hfcnt, h⟩ := except_bind_ok h
  obtain ⟨s3, hasrc, h⟩ := except_bind_ok h
  rw [State.putIf_unwritten h, State.putIf_unwritten hasrc, State.put_unwritten hfcnt, State.put_unwritten hscr]

/-! ### All operations -/

/-- No pseudocode writes the model's own fields, the status fields or the input side. -/
theorem opBody_unwritten {i : Instr} {s t : State} (h : opBody i s = .ok t) : t.unwritten = s.unwritten := by
  cases i with
  | nop | clr => cases h; rfl
  | decU8 | decU16 | decU32 | decU64 => exact decodeAcc_unwritten h
  | decBuf => exact decodePayload_unwritten h
  | encU8 | encU16 | encU32 | encU64 => exact State.put_unwritten h
  | encBuf => exact State.putSeq_unwritten h
  | bfGet8 | bfGet16 => exact bitfieldGet_unwritten h
  | bfTst8 | bfTst16 => exact bitfieldTest_unwritten h
  | bfMake8 | bfMake16 => exact bitfieldMake_unwritten h
  | decFc => exact decodeFc_unwritten h
  | decMc => exact decodeMc_unwritten h
  | decSrs => exact decodeSubframe_unwritten h
  | decHdr => exact decodeHeader_unwritten h
  | decCid => exact decodeCid_unwritten h
  | decFrm => exact decodeFrame_unwritten h
  | txm => exact classify_unwritten h
  | encFc | encMc | encCid | encSc => exact State.put_unwritten h
  | encSrs => exact State.putSubframe_unwritten h
  | encHdr => exact encodeHeader_unwritten h
  | encFrm => exact encodeFrame_unwritten h
  | decSc => exact decodeSc_unwritten h
  | decAux => exact decodeAux_unwritten h
  | encAux => exact encodeAux_unwritten h
  | nwkData fc => exact decodeFrameAs_unwritten decodeArmData_unwritten h
  | nwkCmd fc => exact decodeFrameAs_unwritten decodeArmCommand_unwritten h
  | nwkRsvd fc => exact decodeFrameAs_unwritten decodeArmReserved_unwritten h
  | nwkInterPan fc => exact decodeFrameAs_unwritten decodeArmInterPan_unwritten h

theorem opBody_cfg {i : Instr} {s t : State} (h : opBody i s = .ok t) : t.cfg = s.cfg :=
  congrArg Unwritten.cfg (opBody_unwritten h)

/-- No instruction changes the parameters. -/
theorem exec_cfg {i : Instr} {s t : State} (h : exec i s = .next t) : t.cfg = s.cfg := by
  obtain ⟨-, rfl⟩ | ⟨-, rfl⟩ | ⟨-, rfl⟩ | ⟨-, u, hu, rfl⟩ | ⟨-, f, -, rfl⟩ := exec_cases h
  · rfl
  · rfl
  · rfl
  · exact (opBody_cfg hu :)
  · rfl

/-! ### Host actions and steps -/

@[simp] theorem State.rejectCode_cfg (s : State) (code : Byte) : (s.rejectCode code).cfg = s.cfg := by
  unfold State.rejectCode
  split <;> rfl

@[simp] theorem State.hostSetLen_cfg (s : State) (n : Word16) : (s.hostSetLen n).cfg = s.cfg := by
  unfold State.hostSetLen
  split <;> rfl

@[simp] theorem State.hostSeek_cfg (s : State) (n : Word16) : (s.hostSeek n).cfg = s.cfg := by
  unfold State.hostSeek
  split <;> rfl

@[simp] theorem State.hostSetRlen_cfg (s : State) (n : Word16) : (s.hostSetRlen n).cfg = s.cfg := by
  unfold State.hostSetRlen
  split <;> rfl

@[simp] theorem State.hostSetPlen_cfg (s : State) (n : Word16) : (s.hostSetPlen n).cfg = s.cfg := by
  unfold State.hostSetPlen
  split <;> rfl

@[simp] theorem State.writeReg_cfg (s : State) (reg : Byte) (v : Word64) : (s.writeReg reg v).cfg = s.cfg := by
  unfold State.writeReg
  split <;> simp

@[simp] theorem State.hostLoad_cfg (s : State) (b : List Byte) : (s.hostLoad b).cfg = s.cfg := by
  unfold State.hostLoad
  split <;> rfl

@[simp] theorem State.hostSetBuf_cfg (s : State) (buf : ValueBuf) (b : List Byte) :
    (s.hostSetBuf buf b).cfg = s.cfg := by
  unfold State.hostSetBuf
  cases buf with
  | pl => dsimp only; split <;> rfl
  | rl => dsimp only; split <;> rfl

@[simp] theorem State.hostSetByte_cfg (s : State) (sp : Space) (i : Nat) (v : Byte) :
    (s.hostSetByte sp i v).cfg = s.cfg := by
  unfold State.hostSetByte
  split
  · cases sp <;> rfl
  · rfl

/-- `RESET` keeps the parameters (R261): it names them, where every register takes its reset value. -/
@[simp] theorem State.hostReset_cfg (s : State) : s.hostReset.cfg = s.cfg := rfl

@[simp] theorem hostAct_cfg (a : HostAction) (s : State) : (hostAct a s).cfg = s.cfg := by
  cases a with
  | reset => exact s.hostReset_cfg
  | load b => exact s.hostLoad_cfg b
  | setLen n => exact s.hostSetLen_cfg n
  | seek n => exact s.hostSeek_cfg n
  | oclr => exact s.hostClearOutput_cfg
  | set reg v => exact s.writeReg_cfg reg v
  | setBuf buf b => exact s.hostSetBuf_cfg buf b
  | setByte sp i v => exact s.hostSetByte_cfg sp i v
  | op | get | getByte => rfl

/-- All a step can do: nothing with no action pending; else the next action is taken off the list and is a host action
with its own effect, an operation code that decodes and runs, or one that the decoder rejects. -/
theorem step_cases {s t : State} (h : step s = .next t) :
    (s.pending = [] ∧ t = s) ∨
    ∃ a rest, s.pending = a :: rest ∧
      ((operationRequest a = none ∧ t = hostAct a (s.withPending rest)) ∨
       ∃ c, operationRequest a = some c ∧
        ((∃ i, fetchOperation c = .ok i ∧ exec i (s.withPending rest) = .next t) ∨
         ∃ e, fetchOperation c = .error e ∧ t = (s.withPending rest).rejectCode c)) := by
  unfold step at h
  split at h
  next hp =>
    injection h with h
    exact .inl ⟨hp, h.symm⟩
  next a rest hp =>
    refine .inr ⟨a, rest, hp, ?_⟩
    split at h
    next ha =>
      injection h with h
      exact .inl ⟨ha, h.symm⟩
    next c ha =>
      refine .inr ⟨c, ha, ?_⟩
      split at h
      next i hi => exact .inl ⟨i, hi, h⟩
      next e he =>
        injection h with h
        exact .inr ⟨e, he, h.symm⟩

/-- Settles O16, by the cases of a step. -/
theorem stepKeepsTheParameters : Obligations.StepKeepsTheParameters := by
  intro s t h
  obtain ⟨-, rfl⟩ | ⟨a, rest, -, ⟨-, rfl⟩ | ⟨c, -, ⟨i, -, hi⟩ | ⟨e, -, rfl⟩⟩⟩ := step_cases h
  · rfl
  · rw [hostAct_cfg, State.withPending_cfg]
  · rw [exec_cfg hi, State.withPending_cfg]
  · rw [State.rejectCode_cfg, State.withPending_cfg]

end Sys2Proof.Machine
end

section
/-! PROOFS. The register state: the operation cycle, the reset values, the invariant of 10_state.md R47 and R22, and
which instruction may write which part of the state (R49; 20_memory.md R60).

Every operation is of one of three kinds (`Instr.kind`), and what its pseudocode can do is said once per kind: an encode
only appends to the output (`opBody_appendsTo`), a utility only writes `ACC`, `FVAL` and `TXR` (`opBody_utility`), and a
decode moves the cursor, commits registers and refills a value buffer (`opBody_decodeEffect`). The statements about all
instructions are read off these three. -/

namespace Sys2Proof

/-! ### Kinds of operations -/

/-- Which side of the block an operation works on. -/
inductive OpKind where
  /-- It appends to the output buffer. -/
  | encode
  /-- It works on `ACC`, `FVAL`, `TXR` or the status fields alone. -/
  | utility
  /-- It reads at the cursor. -/
  | decode

/-- The kind of an operation. The wire rows are arms of `DEC.FRM` (log entry 6). -/
def Instr.kind : Instr → OpKind
  | .encU8 | .encU16 | .encU32 | .encU64 | .encBuf
  | .encFc | .encMc | .encSrs | .encHdr | .encCid | .encFrm | .encSc | .encAux => .encode
  | .nop | .clr | .bfGet8 | .bfGet16 | .bfTst8 | .bfTst16 | .bfMake8 | .bfMake16 | .txm => .utility
  | .decU8 | .decU16 | .decU32 | .decU64 | .decBuf
  | .decFc | .decMc | .decSrs | .decHdr | .decCid | .decFrm | .decSc | .decAux
  | .nwkData _ | .nwkCmd _ | .nwkRsvd _ | .nwkInterPan _ => .decode

theorem Instr.kind_eq_encode_iff (i : Instr) :
    i.kind = .encode ↔
      i ∈ [Instr.encU8, .encU16, .encU32, .encU64, .encBuf, .encFc, .encMc, .encSrs, .encHdr, .encCid, .encFrm, .encSc,
        .encAux] := by
  cases i <;> simp [Instr.kind]

theorem Instr.kind_ne_decode_iff (i : Instr) :
    i.kind ≠ .decode ↔
      i ∈ [Instr.nop, .clr, .encU8, .encU16, .encU32, .encU64, .encBuf, .bfGet8, .bfGet16, .bfTst8, .bfTst16, .bfMake8,
        .bfMake16, .txm, .encFc, .encMc, .encSrs, .encHdr, .encCid, .encFrm, .encSc, .encAux] := by
  cases i <;> simp [Instr.kind]

/-- The instructions whose rule stores bytes in `PL` (20_memory.md R60). -/
def Instr.StoresPayload (i : Instr) : Prop := i = .decBuf ∨ i = .decFrm ∨ ∃ fc, i = .nwkData fc ∨ i = .nwkCmd fc

/-- The instructions whose rule stores bytes in `RL` (20_memory.md R60). -/
def Instr.StoresRelay (i : Instr) : Prop :=
  i = .decSrs ∨ i = .decHdr ∨ i = .decFrm ∨
    ∃ fc, i = .nwkData fc ∨ i = .nwkCmd fc ∨ i = .nwkRsvd fc ∨ i = .nwkInterPan fc

end Sys2Proof

namespace Sys2Proof.Machine

/-! ### Encodes append -/

theorem Memory.setSeq_append (m : Memory) (x : Nat) (a b : List Byte) :
    Memory.setSeq m x (a ++ b) = Memory.setSeq (Memory.setSeq m x a) (x + a.length) b := by
  induction a generalizing m x with
  | nil => rfl
  | cons v a ih =>
    rw [List.cons_append, Memory.setSeq, ih, Memory.setSeq, List.length_cons, Nat.add_assoc, Nat.add_comm 1]

/-- The state after the bytes `b` were put at the end of the output. -/
def State.appended (s : State) (b : List Byte) : State :=
  { s with ob := Memory.setSeq s.ob s.olen.toNat b, olen := BitVec.ofNat 16 (s.olen.toNat + b.length) }

/-- The bytes `b` fit the output buffer; no bytes fit it always, also where `OLEN` breaks R47. -/
def State.HasRoom (s : State) (b : List Byte) : Prop := b ≠ [] → s.olen.toNat + b.length ≤ s.cfg.obCap

/-- `t` is `s` with some bytes, for which there was room, put at the end of the output. -/
def State.AppendsTo (s t : State) : Prop := ∃ b, s.HasRoom b ∧ t = s.appended b

/-- `OLEN` never wraps. -/
theorem State.appended_olen {s : State} {b : List Byte} (h : s.HasRoom b) :
    (s.appended b).olen.toNat = s.olen.toNat + b.length := by
  have hcap := Config.obCap_lt s.cfg
  have holen := s.olen.isLt
  have hfit : s.olen.toNat + b.length < 65536 := by
    cases b with
    | nil => exact holen
    | cons x b => exact (h (List.cons_ne_nil x b)).trans_lt hcap
  rw [State.appended, BitVec.toNat_ofNat]
  omega

theorem State.appended_appended {s : State} {a b : List Byte} (h : s.HasRoom a) :
    (s.appended a).appended b = s.appended (a ++ b) := by
  have holen := State.appended_olen h
  rw [State.appended, holen]
  simp only [State.appended, Memory.setSeq_append, List.length_append, Nat.add_assoc]

theorem State.AppendsTo.refl (s : State) : s.AppendsTo s :=
  ⟨[], fun h => absurd rfl h, by simp [State.appended, Memory.setSeq]⟩

theorem State.AppendsTo.trans {s t u : State} (h : s.AppendsTo t) (h' : t.AppendsTo u) : s.AppendsTo u := by
  obtain ⟨a, ha, rfl⟩ := h
  obtain ⟨b, hb, rfl⟩ := h'
  refine ⟨a ++ b, fun hab => ?_, State.appended_appended ha⟩
  rw [List.length_append]
  by_cases hnil : b = []
  · subst hnil
    simpa using ha (by simpa using hab)
  · have := hb hnil
    rw [State.appended_olen ha] at this
    rwa [← Nat.add_assoc]

theorem State.putSeq_appendsTo {s t : State} {b : List Byte} (h : s.putSeq b = .ok t) : s.AppendsTo t := by
  obtain ⟨hfit, rfl⟩ := State.putSeq_eq_ok h
  exact ⟨b, fun _ => hfit, rfl⟩

theorem State.put_appendsTo {s t : State} {n v : Nat} (h : s.put n v = .ok t) : s.AppendsTo t :=
  State.putSeq_appendsTo h

theorem State.putIf_appendsTo {s t : State} {present : Bool} {n v : Nat} (h : s.putIf present n v = .ok t) :
    s.AppendsTo t := by
  cases present with
  | false => cases h; exact .refl s
  | true => exact State.put_appendsTo h

theorem State.putSubframe_appendsTo {s t : State} (h : s.putSubframe = .ok t) : s.AppendsTo t := by
  obtain ⟨s1, hcount, h⟩ := except_bind_ok h
  obtain ⟨s2, hindex, h⟩ := except_bind_ok h
  exact ((State.put_appendsTo hcount).trans (State.put_appendsTo hindex)).trans (State.putSeq_appendsTo h)

theorem encodeHeader_appendsTo {s t : State} (h : encodeHeader s = .ok t) : s.AppendsTo t := by
  obtain ⟨s1, hfc, h⟩ := except_bind_ok h
  obtain ⟨s2, hdst, h⟩ := except_bind_ok h
  obtain ⟨s3, hsrc, h⟩ := except_bind_ok h
  obtain ⟨s4, hradius, h⟩ := except_bind_ok h
  obtain ⟨s5, hseq, h⟩ := except_bind_ok h
  obtain ⟨s6, hdieee, h⟩ := except_bind_ok h
  obtain ⟨s7, hsieee, h⟩ := except_bind_ok h
  obtain ⟨s8, hmc, h⟩ := except_bind_ok h
  have hfixed : s.AppendsTo s5 :=
    ((((State.put_appendsTo hfc).trans (State.put_appendsTo hdst)).trans (State.put_appendsTo hsrc)).trans
      (State.put_appendsTo hradius)).trans (State.put_appendsTo hseq)
  have hflagged : s5.AppendsTo s8 :=
    ((State.putIf_appendsTo hdieee).trans (State.putIf_appendsTo hsieee)).trans (State.putIf_appendsTo hmc)
  have hfields : s.AppendsTo s8 := hfixed.trans hflagged
  split at h
  · exact hfields.trans (State.putSubframe_appendsTo h)
  · cases h; exact hfields

theorem encodeArm_appendsTo {fc : Word16} {s t : State} (h : encodeArm fc s = .ok t) : s.AppendsTo t := by
  unfold encodeArm at h
  split at h
  · exact State.putSeq_appendsTo h
  · obtain ⟨u, hcid, h⟩ := except_bind_ok h
    exact (State.put_appendsTo hcid).trans (State.putSeq_appendsTo h)
  · cases h; exact .refl s
  · cases h; exact .refl s

theorem encodeFrame_appendsTo {s t : State} (h : encodeFrame s = .ok t) : s.AppendsTo t := by
  obtain ⟨u, hhd, h⟩ := except_bind_ok h
  exact (encodeHeader_appendsTo hhd).trans (encodeArm_appendsTo h)

theorem encodeAux_appendsTo {s t : State} (h : encodeAux s = .ok t) : s.AppendsTo t := by
  obtain ⟨s1, hscr, h⟩ := except_bind_ok h
  obtain ⟨s2, hfcnt, h⟩ := except_bind_ok h
  obtain ⟨s3, hasrc, h⟩ := except_bind_ok h
  exact (((State.put_appendsTo hscr).trans (State.put_appendsTo hfcnt)).trans (State.putIf_appendsTo hasrc)).trans
    (State.putIf_appendsTo h)

/-- All an encode can do. -/
theorem opBody_appendsTo {i : Instr} {s t : State} (hi : i.kind = .encode) (h : opBody i s = .ok t) :
    s.AppendsTo t := by
  cases i with
  | encU8 | encU16 | encU32 | encU64 | encFc | encMc | encCid | encSc => exact State.put_appendsTo h
  | encBuf => exact State.putSeq_appendsTo h
  | encSrs => exact State.putSubframe_appendsTo h
  | encHdr => exact encodeHeader_appendsTo h
  | encFrm => exact encodeFrame_appendsTo h
  | encAux => exact encodeAux_appendsTo h
  | _ => cases hi

/-! ### Utilities write `ACC`, `FVAL` and `TXR` -/

/-- `t` is `s` but for `ACC`, `FVAL` and `TXR`. -/
def State.OnlyResults (s t : State) : Prop := ∃ acc fval txr, t = { s with acc := acc, fval := fval, txr := txr }

theorem bitfieldGet_onlyResults {w : Nat} {s t : State} (h : bitfieldGet w s = .ok t) : s.OnlyResults t := by
  unfold bitfieldGet at h
  split at h
  · cases h
  · cases h; exact ⟨_, _, _, rfl⟩

theorem bitfieldTest_onlyResults {w : Nat} {s t : State} (h : bitfieldTest w s = .ok t) : s.OnlyResults t := by
  unfold bitfieldTest at h
  split at h
  · cases h
  · cases h; exact ⟨_, _, _, rfl⟩

theorem bitfieldMake_onlyResults {w : Nat} {s t : State} (h : bitfieldMake w s = .ok t) : s.OnlyResults t := by
  unfold bitfieldMake at h
  split_ifs at h
  cases h
  exact ⟨_, _, _, rfl⟩

/-- All a utility can do. -/
theorem opBody_utility {i : Instr} {s t : State} (hi : i.kind = .utility) (h : opBody i s = .ok t) :
    s.OnlyResults t := by
  cases i with
  | nop | clr | txm => cases h; exact ⟨_, _, _, rfl⟩
  | bfGet8 | bfGet16 => exact bitfieldGet_onlyResults h
  | bfTst8 | bfTst16 => exact bitfieldTest_onlyResults h
  | bfMake8 | bfMake16 => exact bitfieldMake_onlyResults h
  | _ => cases hi

/-! ### `Take`s move the cursor -/

/-- `t` is `s` with the cursor moved, and not past `LEN` if it was not past it. -/
def State.AdvancesTo (s t : State) : Prop :=
  ∃ c : Word16, (s.cur.toNat ≤ s.len.toNat → c.toNat ≤ s.len.toNat) ∧ t = { s with cur := c }

theorem State.AdvancesTo.refl (s : State) : s.AdvancesTo s := ⟨s.cur, id, rfl⟩

theorem State.AdvancesTo.trans {s t u : State} (h : s.AdvancesTo t) (h' : t.AdvancesTo u) : s.AdvancesTo u := by
  obtain ⟨c, hc, rfl⟩ := h
  obtain ⟨d, hd, rfl⟩ := h'
  exact ⟨d, fun hs => hd (hc hs), rfl⟩

theorem State.take_advancesTo {s t : State} {n v : Nat} (h : s.take n = .ok (v, t)) : s.AdvancesTo t := by
  obtain ⟨hn, -, rfl⟩ := State.take_eq_ok h
  refine ⟨_, fun hs => ?_, rfl⟩
  rw [State.take_cur hn]
  omega

theorem State.takeIf_advancesTo {s t : State} {present : Bool} {n v : Nat} (h : s.takeIf present n = .ok (v, t)) :
    s.AdvancesTo t := by
  cases present with
  | false => cases h; exact .refl s
  | true => exact State.take_advancesTo h

theorem State.takeRest_advancesTo {s t : State} {cap : Nat} {b : List Byte} (h : s.takeRest cap = .ok (b, t)) :
    s.AdvancesTo t ∧ b.length ≤ cap := by
  obtain ⟨hfit, rfl, rfl⟩ := State.takeRest_eq_ok h
  exact ⟨⟨s.len, fun _ => le_rfl, rfl⟩, by rwa [State.readBytes_length]⟩

theorem State.AdvancesTo.cfg {s t : State} (h : s.AdvancesTo t) : t.cfg = s.cfg := by
  obtain ⟨c, -, rfl⟩ := h
  rfl

theorem State.takeSubframe_advancesTo {s t : State} {f : Subframe} (h : s.takeSubframe = .ok (f, t)) :
    s.AdvancesTo t ∧ f.relay.length ≤ s.cfg.relayCap := by
  obtain ⟨⟨c, s1⟩, hcount, h⟩ := except_bind_ok h
  obtain ⟨⟨i, s2⟩, hindex, h⟩ := except_bind_ok h
  obtain ⟨⟨r, s3⟩, hrelay, h⟩ := except_bind_ok h
  cases h
  have hs2 := (State.take_advancesTo hcount).trans (State.take_advancesTo hindex)
  obtain ⟨hs3, hr⟩ := State.takeRest_advancesTo hrelay
  exact ⟨hs2.trans hs3, hs2.cfg ▸ hr⟩

theorem State.takeSubframeIf_advancesTo {s t : State} {present : Bool} {f : Subframe}
    (h : s.takeSubframeIf present = .ok (f, t)) : s.AdvancesTo t ∧ f.relay.length ≤ s.cfg.relayCap := by
  cases present with
  | false => cases h; exact ⟨.refl s, Nat.zero_le _⟩
  | true => exact State.takeSubframe_advancesTo h

theorem State.takeHeaderAfter_advancesTo {fc : Word16} {s t : State} {hd : Header}
    (h : s.takeHeaderAfter fc = .ok (hd, t)) : s.AdvancesTo t ∧ hd.subframe.relay.length ≤ s.cfg.relayCap := by
  obtain ⟨⟨d, s1⟩, hdst, h⟩ := except_bind_ok h
  obtain ⟨⟨a, s2⟩, hsrc, h⟩ := except_bind_ok h
  obtain ⟨⟨r, s3⟩, hradius, h⟩ := except_bind_ok h
  obtain ⟨⟨q, s4⟩, hseq, h⟩ := except_bind_ok h
  obtain ⟨⟨di, s5⟩, hdieee, h⟩ := except_bind_ok h
  obtain ⟨⟨si, s6⟩, hsieee, h⟩ := except_bind_ok h
  obtain ⟨⟨m, s7⟩, hmc, h⟩ := except_bind_ok h
  obtain ⟨⟨f, s8⟩, hsub, h⟩ := except_bind_ok h
  cases h
  have hfixed : s.AdvancesTo s4 :=
    (((State.take_advancesTo hdst).trans (State.take_advancesTo hsrc)).trans (State.take_advancesTo hradius)).trans
      (State.take_advancesTo hseq)
  have hflagged : s4.AdvancesTo s7 :=
    ((State.takeIf_advancesTo hdieee).trans (State.takeIf_advancesTo hsieee)).trans (State.takeIf_advancesTo hmc)
  have hs7 := hfixed.trans hflagged
  obtain ⟨hs8, hf⟩ := State.takeSubframeIf_advancesTo hsub
  exact ⟨hs7.trans hs8, hs7.cfg ▸ hf⟩

theorem State.takeHeader_advancesTo {s t : State} {hd : Header} (h : s.takeHeader = .ok (hd, t)) :
    s.AdvancesTo t ∧ hd.subframe.relay.length ≤ s.cfg.relayCap := by
  obtain ⟨⟨w, u⟩, hw, h⟩ := except_bind_ok h
  have hu := State.take_advancesTo hw
  obtain ⟨ht, hrelay⟩ := State.takeHeaderAfter_advancesTo h
  exact ⟨hu.trans ht, hu.cfg ▸ hrelay⟩

/-! ### A value buffer and its length register -/

/-- A value buffer with its length register, `m` and `n` before and `m'` and `n'` after: both are kept, or bytes within
the capacity were stored from index 0. Only where that is `allowed` are there any bytes to store. -/
def Refilled (allowed : Prop) (cap : Nat) (m : Memory) (n : Word16) (m' : Memory) (n' : Word16) : Prop :=
  (m' = m ∧ n' = n) ∨
  ∃ b : List Byte, b.length ≤ cap ∧ (b ≠ [] → allowed) ∧ m' = Memory.setSeq m 0 b ∧ n' = BitVec.ofNat 16 b.length

theorem toNat_ofNat_of_le_cap {cap k : Nat} (hcap : cap < 65536) (hk : k ≤ cap) : (BitVec.ofNat 16 k).toNat = k := by
  rw [BitVec.toNat_ofNat]
  omega

/-- The bounds and the canonical form that R47 asks of a value buffer survive. -/
theorem Refilled.keeps_bounds {allowed : Prop} {cap : Nat} {m m' : Memory} {n n' : Word16}
    (h : Refilled allowed cap m n m' n') (hcap : cap < 65536) (hn : n.toNat ≤ cap)
    (hm : Memory.wf m = true ∧ Memory.within m cap = true) :
    n'.toNat ≤ cap ∧ Memory.wf m' = true ∧ Memory.within m' cap = true := by
  obtain ⟨rfl, rfl⟩ | ⟨b, hb, -, rfl, rfl⟩ := h
  · exact ⟨hn, hm⟩
  · exact ⟨(toNat_ofNat_of_le_cap hcap hb).trans_le hb, Memory.wf_setSeq 0 b hm.1,
      Memory.within_setSeq 0 b hm.2 (by omega)⟩

/-- A byte is kept, or lies below the new length. -/
theorem Refilled.get? {allowed : Prop} {cap : Nat} {m m' : Memory} {n n' : Word16}
    (h : Refilled allowed cap m n m' n') (hcap : cap < 65536) (a : Nat) :
    Memory.get? m' a = Memory.get? m a ∨ (allowed ∧ a < n'.toNat) := by
  obtain ⟨rfl, -⟩ | ⟨b, hb, hallowed, rfl, rfl⟩ := h
  · exact .inl rfl
  · by_cases ha : a < b.length
    · exact .inr ⟨hallowed (List.ne_nil_of_length_pos (by omega)), by rwa [toNat_ofNat_of_le_cap hcap hb]⟩
    · exact .inl (Memory.get?_setSeq_outside m 0 b a (by omega))

/-! ### Decodes -/

/-- What a decode does, beside writing registers that R47 does not bound: it leaves the output alone, keeps the cursor
inside the scope and the reserved bits of `FC` and `SCR` clear, and refills the two value buffers within their
capacities. `pl` and `rl` say whether it may store bytes in `PL` and in `RL`. -/
structure DecodeEffect (pl rl : Prop) (s t : State) : Prop where
  ob : t.ob = s.ob
  olen : t.olen = s.olen
  cur : s.cur.toNat ≤ s.len.toNat → t.cur.toNat ≤ s.len.toNat
  fc : s.fc.toNat < 0x4000 → t.fc.toNat < 0x4000
  scr : s.scr.toNat < 0x40 → t.scr.toNat < 0x40
  payload : Refilled pl s.cfg.payloadCap s.pl s.plen t.pl t.plen
  relay : Refilled rl s.cfg.relayCap s.rl s.rlen t.rl t.rlen

section
variable {pl rl : Prop} {s t u : State}

theorem State.AdvancesTo.decodeEffect (h : s.AdvancesTo t) : DecodeEffect pl rl s t := by
  obtain ⟨c, hc, rfl⟩ := h
  exact ⟨rfl, rfl, hc, id, id, .inl ⟨rfl, rfl⟩, .inl ⟨rfl, rfl⟩⟩

theorem dropReservedFc_lt (w : Word16) : (dropReservedFc w).toNat < 0x4000 := by
  rw [dropReservedFc_toNat]
  exact Nat.mod_lt _ (by decide)

theorem dropReservedSc_lt (b : Byte) : (dropReservedSc b).toNat < 0x40 := by
  rw [dropReservedSc_toNat]
  exact Nat.mod_lt _ (by decide)

theorem decodeAcc_decodeEffect {n : Nat} (h : decodeAcc n s = .ok t) : DecodeEffect pl rl s t := by
  obtain ⟨⟨v, u⟩, hv, h⟩ := except_bind_ok h
  cases h
  exact { (State.take_advancesTo hv).decodeEffect with }

theorem decodeMc_decodeEffect (h : decodeMc s = .ok t) : DecodeEffect pl rl s t := by
  obtain ⟨⟨b, u⟩, hb, h⟩ := except_bind_ok h
  cases h
  exact { (State.take_advancesTo hb).decodeEffect with }

theorem decodeCid_decodeEffect (h : decodeCid s = .ok t) : DecodeEffect pl rl s t := by
  obtain ⟨⟨b, u⟩, hb, h⟩ := except_bind_ok h
  cases h
  exact { (State.take_advancesTo hb).decodeEffect with }

theorem decodeFc_decodeEffect (h : decodeFc s = .ok t) : DecodeEffect pl rl s t := by
  obtain ⟨⟨w, u⟩, hw, h⟩ := except_bind_ok h
  cases h
  exact { (State.take_advancesTo hw).decodeEffect with fc := fun _ => dropReservedFc_lt _ }

theorem decodeSc_decodeEffect (h : decodeSc s = .ok t) : DecodeEffect pl rl s t := by
  obtain ⟨⟨b, u⟩, hb, h⟩ := except_bind_ok h
  cases h
  exact { (State.take_advancesTo hb).decodeEffect with scr := fun _ => dropReservedSc_lt _ }

theorem decodeAux_decodeEffect (h : decodeAux s = .ok t) : DecodeEffect pl rl s t := by
  obtain ⟨⟨b, s1⟩, hscr, h⟩ := except_bind_ok h
  obtain ⟨⟨f, s2⟩, hfcnt, h⟩ := except_bind_ok h
  obtain ⟨⟨a, s3⟩, hasrc, h⟩ := except_bind_ok h
  obtain ⟨⟨k, s4⟩, hkseq, h⟩ := except_bind_ok h
  cases h
  have hs4 : s.AdvancesTo s4 :=
    (((State.take_advancesTo hscr).trans (State.take_advancesTo hfcnt)).trans (State.takeIf_advancesTo hasrc)).trans
      (State.takeIf_advancesTo hkseq)
  exact { hs4.decodeEffect with scr := fun _ => dropReservedSc_lt _ }

theorem State.AdvancesTo.commitSubframe (h : s.AdvancesTo t) {f : Subframe} (hf : f.relay.length ≤ s.cfg.relayCap)
    (hrl : rl) : DecodeEffect pl rl s (t.commitSubframe f) := by
  obtain ⟨c, hc, rfl⟩ := h
  exact ⟨rfl, rfl, hc, id, id, .inl ⟨rfl, rfl⟩, .inr ⟨f.relay, hf, fun _ => hrl, rfl, rfl⟩⟩

theorem State.AdvancesTo.commitHeader (h : s.AdvancesTo t) {hd : Header}
    (hf : hd.subframe.relay.length ≤ s.cfg.relayCap) (hrl : rl) : DecodeEffect pl rl s (t.commitHeader hd) :=
  { h.commitSubframe hf hrl with fc := fun _ => dropReservedFc_lt hd.fc }

theorem State.AdvancesTo.setPayload (h : s.AdvancesTo t) {p : List Byte} (hp : p.length ≤ s.cfg.payloadCap)
    (hpl : p ≠ [] → pl) : DecodeEffect pl rl s (t.setPayload p) := by
  obtain ⟨c, hc, rfl⟩ := h
  exact ⟨rfl, rfl, hc, id, id, .inr ⟨p, hp, hpl, rfl, rfl⟩, .inl ⟨rfl, rfl⟩⟩

theorem decodePayload_decodeEffect (hpl : pl) (h : decodePayload s = .ok t) : DecodeEffect pl rl s t := by
  obtain ⟨⟨p, u⟩, hrest, h⟩ := except_bind_ok h
  cases h
  obtain ⟨hu, hp⟩ := State.takeRest_advancesTo hrest
  exact hu.setPayload hp fun _ => hpl

theorem decodeSubframe_decodeEffect (hrl : rl) (h : decodeSubframe s = .ok t) : DecodeEffect pl rl s t := by
  obtain ⟨⟨f, u⟩, hsub, h⟩ := except_bind_ok h
  cases h
  obtain ⟨hu, hf⟩ := State.takeSubframe_advancesTo hsub
  exact hu.commitSubframe hf hrl

theorem decodeHeader_decodeEffect (hrl : rl) (h : decodeHeader s = .ok t) : DecodeEffect pl rl s t := by
  obtain ⟨⟨hd, u⟩, hhd, h⟩ := except_bind_ok h
  cases h
  obtain ⟨hu, hf⟩ := State.takeHeader_advancesTo hhd
  exact hu.commitHeader hf hrl

/-- What an arm of a whole-frame decode does to the state after the header (R178 to R181): it consumes bytes and
writes `CID` and the payload, which is empty unless the arm may store bytes in `PL`. -/
def ArmEffect (pl : Prop) (s t : State) : Prop :=
  ∃ u cid p, s.AdvancesTo u ∧ p.length ≤ s.cfg.payloadCap ∧ (p ≠ [] → pl) ∧ t = { u with cid := cid }.setPayload p

theorem decodeArmData_armEffect (hpl : pl) (h : decodeArmData s = .ok t) : ArmEffect pl s t := by
  obtain ⟨⟨p, u⟩, hrest, h⟩ := except_bind_ok h
  cases h
  obtain ⟨hu, hp⟩ := State.takeRest_advancesTo hrest
  exact ⟨u, 0, p, hu, hp, fun _ => hpl, rfl⟩

theorem decodeArmCommand_armEffect (hpl : pl) (h : decodeArmCommand s = .ok t) : ArmEffect pl s t := by
  obtain ⟨⟨c, s1⟩, hcid, h⟩ := except_bind_ok h
  obtain ⟨⟨p, u⟩, hrest, h⟩ := except_bind_ok h
  cases h
  have hs1 := State.take_advancesTo hcid
  obtain ⟨hu, hp⟩ := State.takeRest_advancesTo hrest
  exact ⟨u, BitVec.ofNat 8 c, p, hs1.trans hu, hs1.cfg ▸ hp, fun _ => hpl, rfl⟩

theorem decodeArmReserved_armEffect (h : decodeArmReserved s = .ok t) : ArmEffect pl s t := by
  cases h
  exact ⟨s, 0, [], .refl s, Nat.zero_le _, fun h => absurd rfl h, rfl⟩

theorem decodeArmInterPan_armEffect (h : decodeArmInterPan s = .ok t) : ArmEffect pl s t := by
  cases h
  exact ⟨s, 0, [], .refl s, Nat.zero_le _, fun h => absurd rfl h, rfl⟩

theorem decodeArm_armEffect {fc : Word16} (hpl : pl) (h : decodeArm fc s = .ok t) : ArmEffect pl s t := by
  unfold decodeArm at h
  split at h
  · exact decodeArmData_armEffect hpl h
  · exact decodeArmCommand_armEffect hpl h
  · exact decodeArmReserved_armEffect h
  · exact decodeArmInterPan_armEffect h

/-- A header decode, which keeps `PL`, and then an arm, which keeps `RL`. -/
theorem State.AdvancesTo.commitFrame (h : s.AdvancesTo u) {hd : Header}
    (hf : hd.subframe.relay.length ≤ s.cfg.relayCap) (hrl : rl) (ha : ArmEffect pl (u.commitHeader hd) t) :
    DecodeEffect pl rl s t := by
  obtain ⟨c, hc, rfl⟩ := h
  obtain ⟨v, cid, p, ⟨d, hd', rfl⟩, hp, hpl, rfl⟩ := ha
  exact ⟨rfl, rfl, fun hs => hd' (hc hs), fun _ => dropReservedFc_lt hd.fc, id, .inr ⟨p, hp, hpl, rfl, rfl⟩,
    .inr ⟨hd.subframe.relay, hf, fun _ => hrl, rfl, rfl⟩⟩

theorem decodeFrame_decodeEffect (hpl : pl) (hrl : rl) (h : decodeFrame s = .ok t) : DecodeEffect pl rl s t := by
  obtain ⟨⟨hd, u⟩, hhd, h⟩ := except_bind_ok h
  obtain ⟨hu, hf⟩ := State.takeHeader_advancesTo hhd
  exact hu.commitFrame hf hrl (decodeArm_armEffect hpl h)

theorem decodeFrameAs_decodeEffect {fc : Word16} {arm : State → Except Failure State}
    (harm : ∀ {v : State}, arm v = .ok t → ArmEffect pl v t) (hrl : rl) (h : decodeFrameAs fc arm s = .ok t) :
    DecodeEffect pl rl s t := by
  obtain ⟨⟨w, s1⟩, hw, h⟩ := except_bind_ok h
  obtain ⟨⟨hd, u⟩, hhd, h⟩ := except_bind_ok h
  have hs1 := State.take_advancesTo hw
  obtain ⟨hu, hf⟩ := State.takeHeaderAfter_advancesTo hhd
  exact (hs1.trans hu).commitFrame (hs1.cfg ▸ hf) hrl (harm h)

end

/-- All a decode can do. -/
theorem opBody_decodeEffect {i : Instr} {s t : State} (hi : i.kind = .decode) (h : opBody i s = .ok t) :
    DecodeEffect i.StoresPayload i.StoresRelay s t := by
  cases i with
  | decU8 | decU16 | decU32 | decU64 => exact decodeAcc_decodeEffect h
  | decBuf => exact decodePayload_decodeEffect (.inl rfl) h
  | decFc => exact decodeFc_decodeEffect h
  | decMc => exact decodeMc_decodeEffect h
  | decSrs => exact decodeSubframe_decodeEffect (.inl rfl) h
  | decHdr => exact decodeHeader_decodeEffect (.inr (.inl rfl)) h
  | decCid => exact decodeCid_decodeEffect h
  | decFrm => exact decodeFrame_decodeEffect (.inr (.inl rfl)) (.inr (.inr (.inl rfl))) h
  | decSc => exact decodeSc_decodeEffect h
  | decAux => exact decodeAux_decodeEffect h
  | nwkData fc =>
    exact decodeFrameAs_decodeEffect (decodeArmData_armEffect (.inr (.inr ⟨fc, .inl rfl⟩)))
      (.inr (.inr (.inr ⟨fc, .inl rfl⟩))) h
  | nwkCmd fc =>
    exact decodeFrameAs_decodeEffect (decodeArmCommand_armEffect (.inr (.inr ⟨fc, .inr rfl⟩)))
      (.inr (.inr (.inr ⟨fc, .inr (.inl rfl)⟩))) h
  | nwkRsvd fc =>
    exact decodeFrameAs_decodeEffect decodeArmReserved_armEffect (.inr (.inr (.inr ⟨fc, .inr (.inr (.inl rfl))⟩))) h
  | nwkInterPan fc =>
    exact decodeFrameAs_decodeEffect decodeArmInterPan_armEffect (.inr (.inr (.inr ⟨fc, .inr (.inr (.inr rfl))⟩))) h
  | _ => cases hi

/-! ### What a failure raises -/

/-- The errors that pseudocode raises (60_exceptions.md R231, R232, R235). -/
def Failure.Raisable (f : Failure) : Prop :=
  f.err = .insufficientBytes ∨ f.err = .capacityExceeded ∨ f.err = .badField

/-- If `x` fails, it is with an error that pseudocode raises. -/
def RaisesOnly {α : Type} (x : Except Failure α) : Prop := ∀ f, x = .error f → f.Raisable

theorem RaisesOnly.ok {α : Type} (a : α) : RaisesOnly (.ok a : Except Failure α) := fun _ h => nomatch h

theorem RaisesOnly.bind {α β : Type} {x : Except Failure α} {g : α → Except Failure β} (hx : RaisesOnly x)
    (hg : ∀ a, RaisesOnly (g a)) : RaisesOnly (x >>= g) := by
  intro f h
  obtain h | ⟨a, -, h⟩ := except_bind_error h
  · exact hx f h
  · exact hg a f h

theorem RaisesOnly.ite {α : Type} {c : Prop} [Decidable c] {x y : Except Failure α} (hx : RaisesOnly x)
    (hy : RaisesOnly y) : RaisesOnly (if c then x else y) := by
  split
  · exact hx
  · exact hy

theorem State.take_raises (s : State) (n : Nat) : RaisesOnly (s.take n) := by
  intro f h
  obtain ⟨-, rfl⟩ := State.take_eq_error h
  exact .inl rfl

theorem State.takeIf_raises (s : State) (present : Bool) (n : Nat) : RaisesOnly (s.takeIf present n) :=
  .ite (s.take_raises n) (.ok _)

theorem State.takeRest_raises (s : State) (cap : Nat) : RaisesOnly (s.takeRest cap) := by
  intro f h
  obtain ⟨-, rfl⟩ := State.takeRest_eq_error h
  exact .inr (.inl rfl)

theorem State.putSeq_raises (s : State) (b : List Byte) : RaisesOnly (s.putSeq b) := by
  intro f h
  obtain ⟨-, rfl⟩ := State.putSeq_eq_error h
  exact .inr (.inl rfl)

theorem State.put_raises (s : State) (n v : Nat) : RaisesOnly (s.put n v) := s.putSeq_raises _

theorem State.putIf_raises (s : State) (present : Bool) (n v : Nat) : RaisesOnly (s.putIf present n v) :=
  .ite (s.put_raises n v) (.ok _)

theorem badField_raises {α : Type} : RaisesOnly (.error badField : Except Failure α) := by
  rintro f ⟨⟩
  exact .inr (.inr rfl)

theorem bitfieldGet_raises (w : Nat) (s : State) : RaisesOnly (bitfieldGet w s) := .ite badField_raises (.ok _)

theorem bitfieldTest_raises (w : Nat) (s : State) : RaisesOnly (bitfieldTest w s) := .ite badField_raises (.ok _)

theorem bitfieldMake_raises (w : Nat) (s : State) : RaisesOnly (bitfieldMake w s) :=
  .ite badField_raises (.ite badField_raises (.ite badField_raises (.ok _)))

theorem State.takeSubframe_raises (s : State) : RaisesOnly s.takeSubframe :=
  .bind (s.take_raises 1) fun ⟨_, t⟩ => .bind (t.take_raises 1) fun ⟨_, u⟩ =>
    .bind (u.takeRest_raises _) fun _ => .ok _

theorem State.takeSubframeIf_raises (s : State) (present : Bool) : RaisesOnly (s.takeSubframeIf present) :=
  .ite s.takeSubframe_raises (.ok _)

theorem State.takeHeaderAfter_raises (s : State) (fc : Word16) : RaisesOnly (s.takeHeaderAfter fc) :=
  .bind (s.take_raises 2) fun ⟨_, s1⟩ => .bind (s1.take_raises 2) fun ⟨_, s2⟩ =>
    .bind (s2.take_raises 1) fun ⟨_, s3⟩ => .bind (s3.take_raises 1) fun ⟨_, s4⟩ =>
    .bind (s4.takeIf_raises _ 8) fun ⟨_, s5⟩ => .bind (s5.takeIf_raises _ 8) fun ⟨_, s6⟩ =>
    .bind (s6.takeIf_raises _ 1) fun ⟨_, s7⟩ => .bind (s7.takeSubframeIf_raises _) fun _ => .ok _

theorem State.takeHeader_raises (s : State) : RaisesOnly s.takeHeader :=
  .bind (s.take_raises 2) fun ⟨_, t⟩ => t.takeHeaderAfter_raises _

theorem decodePayload_raises (s : State) : RaisesOnly (decodePayload s) :=
  .bind (s.takeRest_raises _) fun _ => .ok _

theorem decodeArmData_raises (s : State) : RaisesOnly (decodeArmData s) :=
  .bind (s.takeRest_raises _) fun _ => .ok _

theorem decodeArmCommand_raises (s : State) : RaisesOnly (decodeArmCommand s) :=
  .bind (s.take_raises 1) fun ⟨_, t⟩ => .bind (t.takeRest_raises _) fun _ => .ok _

theorem decodeArmReserved_raises (s : State) : RaisesOnly (decodeArmReserved s) := .ok _

theorem decodeArmInterPan_raises (s : State) : RaisesOnly (decodeArmInterPan s) := .ok _

theorem decodeArm_raises (fc : Word16) (s : State) : RaisesOnly (decodeArm fc s) := by
  unfold decodeArm
  split
  · exact decodeArmData_raises s
  · exact decodeArmCommand_raises s
  · exact decodeArmReserved_raises s
  · exact decodeArmInterPan_raises s

theorem decodeFrame_raises (s : State) : RaisesOnly (decodeFrame s) :=
  .bind s.takeHeader_raises fun _ => decodeArm_raises _ _

theorem decodeFrameAs_raises {arm : State → Except Failure State} (harm : ∀ u, RaisesOnly (arm u)) (fc : Word16)
    (s : State) : RaisesOnly (decodeFrameAs fc arm s) :=
  .bind (s.take_raises 2) fun ⟨_, t⟩ => .bind (t.takeHeaderAfter_raises _) fun _ => harm _

theorem decodeAux_raises (s : State) : RaisesOnly (decodeAux s) :=
  .bind (s.take_raises 1) fun ⟨_, s1⟩ => .bind (s1.take_raises 4) fun ⟨_, s2⟩ =>
    .bind (s2.takeIf_raises _ 8) fun ⟨_, s3⟩ => .bind (s3.takeIf_raises _ 1) fun _ => .ok _

theorem State.putSubframe_raises (s : State) : RaisesOnly s.putSubframe :=
  .bind (s.put_raises 1 _) fun t => .bind (t.put_raises 1 _) fun u => u.putSeq_raises _

theorem encodeHeader_raises (s : State) : RaisesOnly (encodeHeader s) :=
  .bind (s.put_raises 2 _) fun s1 => .bind (s1.put_raises 2 _) fun s2 => .bind (s2.put_raises 2 _) fun s3 =>
    .bind (s3.put_raises 1 _) fun s4 => .bind (s4.put_raises 1 _) fun s5 => .bind (s5.putIf_raises _ 8 _) fun s6 =>
    .bind (s6.putIf_raises _ 8 _) fun s7 => .bind (s7.putIf_raises _ 1 _) fun s8 =>
    .ite s8.putSubframe_raises (.ok _)

theorem encodeArm_raises (fc : Word16) (s : State) : RaisesOnly (encodeArm fc s) := by
  unfold encodeArm
  split
  · exact s.putSeq_raises _
  · exact .bind (s.put_raises 1 _) fun t => t.putSeq_raises _
  · exact .ok _
  · exact .ok _

theorem encodeFrame_raises (s : State) : RaisesOnly (encodeFrame s) :=
  .bind (encodeHeader_raises s) fun t => encodeArm_raises _ t

theorem encodeAux_raises (s : State) : RaisesOnly (encodeAux s) :=
  .bind (s.put_raises 1 _) fun s1 => .bind (s1.put_raises 4 _) fun s2 => .bind (s2.putIf_raises _ 8 _) fun s3 =>
    s3.putIf_raises _ 1 _

/-- No pseudocode raises `IllegalOp` or the unused code 3. -/
theorem opBody_raises (i : Instr) (s : State) : RaisesOnly (opBody i s) := by
  cases i with
  | nop | clr | txm => exact .ok _
  | decU8 | decU16 | decU32 | decU64 | decFc | decMc | decCid | decSc => exact .bind (s.take_raises _) fun _ => .ok _
  | decBuf => exact decodePayload_raises s
  | encU8 | encU16 | encU32 | encU64 | encFc | encMc | encCid | encSc => exact s.put_raises _ _
  | encBuf => exact s.putSeq_raises _
  | bfGet8 | bfGet16 => exact bitfieldGet_raises _ s
  | bfTst8 | bfTst16 => exact bitfieldTest_raises _ s
  | bfMake8 | bfMake16 => exact bitfieldMake_raises _ s
  | decSrs => exact .bind s.takeSubframe_raises fun _ => .ok _
  | decHdr => exact .bind s.takeHeader_raises fun _ => .ok _
  | decFrm => exact decodeFrame_raises s
  | encSrs => exact s.putSubframe_raises
  | encHdr => exact encodeHeader_raises s
  | encFrm => exact encodeFrame_raises s
  | decAux => exact decodeAux_raises s
  | encAux => exact encodeAux_raises s
  | nwkData fc => exact decodeFrameAs_raises decodeArmData_raises fc s
  | nwkCmd fc => exact decodeFrameAs_raises decodeArmCommand_raises fc s
  | nwkRsvd fc => exact decodeFrameAs_raises decodeArmReserved_raises fc s
  | nwkInterPan fc => exact decodeFrameAs_raises decodeArmInterPan_raises fc s

/-! ### The invariant: reset and host actions -/

/-- The registers of a reset meet the invariant for every choice of the model's own fields. -/
theorem State.reset_inv (c : Config) (p : List HostAction) (e : Nat) :
    State.Inv { State.reset with cfg := c, pending := p, epoch := e } :=
  ⟨Nat.zero_le _, Nat.zero_le _, Nat.zero_le _, Nat.zero_le _, Nat.zero_le _, Nat.zero_lt_succ _,
    Nat.zero_lt_succ _, fun _ => ⟨rfl, rfl⟩, fun h => (nomatch h), ⟨rfl, rfl⟩, ⟨rfl, rfl⟩, ⟨rfl, rfl⟩, ⟨rfl, rfl⟩⟩

/-- Settles O14: the reset values with the parameters the block was built with. -/
theorem resetMeetsTheInvariant : Obligations.ResetMeetsTheInvariant := State.reset_inv Config.built [] 0

section
variable {s : State}

theorem State.Inv.setPayload (hs : s.Inv) {p : List Byte} (hp : p.length ≤ s.cfg.payloadCap) :
    (s.setPayload p).Inv := by
  obtain ⟨hcur, hlen, holen, hplen, hrlen, hfc, hscr, hquiet, hnamed, hib, hob, hpl, hrl⟩ := hs
  obtain ⟨hplen, hpl⟩ := Refilled.keeps_bounds (allowed := True) (.inr ⟨p, hp, fun _ => trivial, rfl, rfl⟩)
    (Config.payloadCap_lt _) hplen hpl
  exact ⟨hcur, hlen, holen, hplen, hrlen, hfc, hscr, hquiet, hnamed, hib, hob, hpl, hrl⟩

theorem State.Inv.setRelay (hs : s.Inv) {r : List Byte} (hr : r.length ≤ s.cfg.relayCap) : (s.setRelay r).Inv := by
  obtain ⟨hcur, hlen, holen, hplen, hrlen, hfc, hscr, hquiet, hnamed, hib, hob, hpl, hrl⟩ := hs
  obtain ⟨hrlen, hrl⟩ := Refilled.keeps_bounds (allowed := True) (.inr ⟨r, hr, fun _ => trivial, rfl, rfl⟩)
    (Config.relayCap_lt _) hrlen hrl
  exact ⟨hcur, hlen, holen, hplen, hrlen, hfc, hscr, hquiet, hnamed, hib, hob, hpl, hrl⟩

theorem State.Inv.setFc (hs : s.Inv) (w : Word16) : (s.setFc w).Inv := by
  obtain ⟨hcur, hlen, holen, hplen, hrlen, -, hscr, hrest⟩ := hs
  exact ⟨hcur, hlen, holen, hplen, hrlen, dropReservedFc_lt w, hscr, hrest⟩

theorem State.Inv.setScr (hs : s.Inv) (b : Byte) : (s.setScr b).Inv := by
  obtain ⟨hcur, hlen, holen, hplen, hrlen, hfc, -, hrest⟩ := hs
  exact ⟨hcur, hlen, holen, hplen, hrlen, hfc, dropReservedSc_lt b, hrest⟩

theorem State.Inv.hostSetLen (hs : s.Inv) (n : Word16) : (s.hostSetLen n).Inv := by
  unfold State.hostSetLen
  split
  next h =>
    obtain ⟨-, -, hrest⟩ := hs
    exact ⟨h.1, h.2, hrest⟩
  next => exact hs

theorem State.Inv.hostSeek (hs : s.Inv) (n : Word16) : (s.hostSeek n).Inv := by
  unfold State.hostSeek
  split
  next h =>
    obtain ⟨-, hrest⟩ := hs
    exact ⟨h, hrest⟩
  next => exact hs

theorem State.Inv.hostClearOutput (hs : s.Inv) : s.hostClearOutput.Inv := by
  obtain ⟨hcur, hlen, -, hrest⟩ := hs
  exact ⟨hcur, hlen, Nat.zero_le _, hrest⟩

theorem State.Inv.hostSetRlen (hs : s.Inv) (n : Word16) : (s.hostSetRlen n).Inv := by
  unfold State.hostSetRlen
  split
  next h =>
    obtain ⟨hcur, hlen, holen, hplen, -, hrest⟩ := hs
    exact ⟨hcur, hlen, holen, hplen, h, hrest⟩
  next => exact hs

theorem State.Inv.hostSetPlen (hs : s.Inv) (n : Word16) : (s.hostSetPlen n).Inv := by
  unfold State.hostSetPlen
  split
  next h =>
    obtain ⟨hcur, hlen, holen, -, hrest⟩ := hs
    exact ⟨hcur, hlen, holen, h, hrest⟩
  next => exact hs

/-- `SET` (R227): the registers with hardwired bits and the checked ones keep the invariant by their own lemmas, and
the invariant does not mention the others. -/
theorem State.Inv.writeReg (hs : s.Inv) (reg : Byte) (v : Word64) : (s.writeReg reg v).Inv := by
  unfold State.writeReg
  split
  case h_1 => exact hs.hostSetLen _
  case h_2 => exact hs.hostSeek _
  case h_3 => exact hs.hostClearOutput
  case h_8 => exact hs.setFc _
  case h_18 => exact hs.hostSetRlen _
  case h_20 => exact hs.hostSetPlen _
  case h_21 => exact hs.setScr _
  all_goals exact hs

theorem State.Inv.hostLoad (hs : s.Inv) (b : List Byte) : (s.hostLoad b).Inv := by
  unfold State.hostLoad
  split
  next h =>
    obtain ⟨-, -, holen, hplen, hrlen, hfc, hscr, hquiet, hnamed, ⟨hwf, hwithin⟩, hrest⟩ := hs
    exact ⟨Nat.zero_le _, (toNat_ofNat_of_le_cap (Config.ibCap_lt _) h).trans_le h, holen, hplen, hrlen, hfc, hscr,
      hquiet, hnamed, ⟨Memory.wf_setSeq 0 b hwf, Memory.within_setSeq 0 b hwithin (by rwa [Nat.zero_add])⟩, hrest⟩
  next => exact hs

theorem State.Inv.hostSetBuf (hs : s.Inv) (buf : ValueBuf) (b : List Byte) : (s.hostSetBuf buf b).Inv := by
  cases buf with
  | pl =>
    show State.Inv (if b.length ≤ s.cfg.payloadCap then s.setPayload b else s)
    split
    next h => exact hs.setPayload h
    next => exact hs
  | rl =>
    show State.Inv (if b.length ≤ s.cfg.relayCap then s.setRelay b else s)
    split
    next h => exact hs.setRelay h
    next => exact hs

theorem State.Inv.hostSetByte (hs : s.Inv) (sp : Space) (i : Nat) (v : Byte) : (s.hostSetByte sp i v).Inv := by
  unfold State.hostSetByte
  split
  next hi =>
    obtain ⟨hcur, hlen, holen, hplen, hrlen, hfc, hscr, hquiet, hnamed, hib, hob, hpl, hrl⟩ := hs
    cases sp with
    | ib =>
      exact ⟨hcur, hlen, holen, hplen, hrlen, hfc, hscr, hquiet, hnamed,
        ⟨Memory.wf_set i v hib.1, Memory.within_set i v hib.2 hi⟩, hob, hpl, hrl⟩
    | ob => exact ⟨hcur, hlen, holen, hplen, hrlen, hfc, hscr, hquiet, hnamed, hib, hob, hpl, hrl⟩
    | pl =>
      exact ⟨hcur, hlen, holen, hplen, hrlen, hfc, hscr, hquiet, hnamed, hib, hob,
        ⟨Memory.wf_set i v hpl.1, Memory.within_set i v hpl.2 hi⟩, hrl⟩
    | rl =>
      exact ⟨hcur, hlen, holen, hplen, hrlen, hfc, hscr, hquiet, hnamed, hib, hob, hpl,
        ⟨Memory.wf_set i v hrl.1, Memory.within_set i v hrl.2 hi⟩⟩
  next => exact hs

/-- Every host action keeps the invariant. -/
theorem State.Inv.hostAct (hs : s.Inv) (a : HostAction) : (hostAct a s).Inv := by
  cases a with
  | reset => exact State.reset_inv _ _ _
  | load b => exact hs.hostLoad b
  | setLen n => exact hs.hostSetLen n
  | seek n => exact hs.hostSeek n
  | oclr => exact hs.hostClearOutput
  | set reg v => exact hs.writeReg reg v
  | setBuf buf b => exact hs.hostSetBuf buf b
  | setByte sp i v => exact hs.hostSetByte sp i v
  | op | get | getByte => exact hs

/-! ### The invariant: operations -/

theorem State.Inv.appended (hs : s.Inv) {b : List Byte} (hb : s.HasRoom b) : (s.appended b).Inv := by
  obtain ⟨hcur, hlen, holen, hplen, hrlen, hfc, hscr, hquiet, hnamed, hib, ⟨hwf, hwithin⟩, hrest⟩ := hs
  have hfit : s.olen.toNat + b.length ≤ s.cfg.obCap := by
    cases b with
    | nil => exact holen
    | cons x b => exact hb (List.cons_ne_nil x b)
  exact ⟨hcur, hlen, (State.appended_olen hb).trans_le hfit, hplen, hrlen, hfc, hscr, hquiet, hnamed, hib,
    ⟨Memory.wf_setSeq _ b hwf, Memory.within_setSeq _ b hwithin hfit⟩, hrest⟩

theorem State.Inv.onlyResults {t : State} (hs : s.Inv) (h : s.OnlyResults t) : t.Inv := by
  obtain ⟨acc, fval, txr, rfl⟩ := h
  exact hs

theorem State.Inv.decodeEffect {t : State} {pl rl : Prop} (hs : s.Inv) (h : DecodeEffect pl rl s t)
    (hu : t.unwritten = s.unwritten) : t.Inv := by
  obtain ⟨hcur, hlen, holen, hplen, hrlen, hfc, hscr, hquiet, hnamed, hib, hob, hpl, hrl⟩ := hs
  have hcfg : t.cfg = s.cfg := congrArg Unwritten.cfg hu
  have hlen' : t.len = s.len := congrArg Unwritten.len hu
  have hphase : t.phase = s.phase := congrArg Unwritten.phase hu
  have herr : t.err = s.err := congrArg Unwritten.err hu
  have hepos : t.epos = s.epos := congrArg Unwritten.epos hu
  have hib' : t.ib = s.ib := congrArg Unwritten.ib hu
  obtain ⟨hplen, hpl⟩ := h.payload.keeps_bounds (Config.payloadCap_lt _) hplen hpl
  obtain ⟨hrlen, hrl⟩ := h.relay.keeps_bounds (Config.relayCap_lt _) hrlen hrl
  unfold State.Inv
  rw [hcfg, hlen', hphase, herr, hepos, hib', h.ob, h.olen]
  exact ⟨h.cur hcur, hlen, holen, hplen, hrlen, h.fc hfc, h.scr hscr, hquiet, hnamed, hib, hob, hpl, hrl⟩

theorem State.Inv.opBody {i : Instr} {t : State} (hs : s.Inv) (h : opBody i s = .ok t) : t.Inv := by
  cases hi : i.kind with
  | encode =>
    obtain ⟨b, hb, rfl⟩ := opBody_appendsTo hi h
    exact hs.appended hb
  | utility => exact hs.onlyResults (opBody_utility hi h)
  | decode => exact hs.decodeEffect (opBody_decodeEffect hi h) (opBody_unwritten h)

theorem State.Inv.clearFailure (hs : s.Inv) : s.clearFailure.Inv := by
  obtain ⟨hcur, hlen, holen, hplen, hrlen, hfc, hscr, -, -, hmem⟩ := hs
  exact ⟨hcur, hlen, holen, hplen, hrlen, hfc, hscr, fun _ => ⟨rfl, rfl⟩, fun h => (nomatch h), hmem⟩

/-- Completion outside `Failed`: the error fields are clear already. -/
theorem State.Inv.doneWith (hs : s.Inv) (hp : s.phase ≠ .failed) (code : Byte) : (s.doneWith code).Inv := by
  obtain ⟨hcur, hlen, holen, hplen, hrlen, hfc, hscr, hquiet, -, hmem⟩ := hs
  exact ⟨hcur, hlen, holen, hplen, hrlen, hfc, hscr, fun _ => hquiet hp, fun h => (nomatch h), hmem⟩

/-- Failure entry with an error that R22 admits. -/
theorem State.Inv.raised (hs : s.Inv) {e : ErrCode} (p : Nat) (code : Byte)
    (he : e = .insufficientBytes ∨ e = .capacityExceeded ∨ e = .illegalOp ∨ e = .badField) :
    (s.raised e p code).Inv := by
  obtain ⟨hcur, hlen, holen, hplen, hrlen, hfc, hscr, -, -, hmem⟩ := hs
  exact ⟨hcur, hlen, holen, hplen, hrlen, hfc, hscr, fun h => absurd rfl h, fun _ => he, hmem⟩

theorem State.Inv.rejectCode (hs : s.Inv) (code : Byte) : (s.rejectCode code).Inv := by
  unfold State.rejectCode
  split
  · exact hs
  · exact hs.raised 0 code (.inr (.inr (.inl rfl)))

/-- Every instruction keeps the invariant. -/
theorem State.Inv.exec {i : Instr} {t : State} (hs : s.Inv) (h : exec i s = .next t) : t.Inv := by
  obtain ⟨-, rfl⟩ | ⟨-, rfl⟩ | ⟨-, rfl⟩ | ⟨hp, u, hu, rfl⟩ | ⟨-, f, hf, rfl⟩ := exec_cases h
  · exact hs
  · exact hs.clearFailure
  · exact hs
  · have hphase : u.phase = s.phase := congrArg Unwritten.phase (opBody_unwritten hu)
    exact (hs.opBody hu).doneWith (hphase ▸ hp) _
  · refine hs.raised f.pos _ ?_
    obtain he | he | he := opBody_raises i s f hf
    · exact .inl he
    · exact .inr (.inl he)
    · exact .inr (.inr (.inr he))

theorem State.Inv.withPending (hs : s.Inv) (rest : List HostAction) : (s.withPending rest).Inv := hs

end

/-- Settles O15, by the cases of a step. -/
theorem stepKeepsTheInvariant : Obligations.StepKeepsTheInvariant := by
  intro s t hs h
  obtain ⟨-, rfl⟩ | ⟨a, rest, -, ⟨-, rfl⟩ | ⟨c, -, ⟨i, -, hi⟩ | ⟨e, -, rfl⟩⟩⟩ := step_cases h
  · exact hs
  · exact (hs.withPending rest).hostAct a
  · exact (hs.withPending rest).exec hi
  · exact (hs.withPending rest).rejectCode c

/-! ### The operation cycle -/

/-- Settles O10: no pseudocode writes the status fields, so completion finds the error fields as they were. -/
theorem acceptedOperationRecordsItsCode : Obligations.AcceptedOperationRecordsItsCode := by
  intro i s t hnop hclr hp h
  obtain ⟨hi, -⟩ | ⟨hi, -⟩ | ⟨hp', -⟩ | ⟨-, u, hu, rfl⟩ | ⟨-, f, -, rfl⟩ := exec_cases h
  · exact absurd hi hnop
  · exact absurd hi hclr
  · exact absurd hp' hp
  · have hunwritten := opBody_unwritten hu
    exact ⟨rfl, .inl ⟨rfl, congrArg Unwritten.err hunwritten, congrArg Unwritten.epos hunwritten⟩⟩
  · exact ⟨rfl, .inr rfl⟩

/-- A write to `OP`, in either form, asks for the operation of its code (R227). -/
theorem operationRequest_of_write {a : HostAction} {c : Byte}
    (h : a = .op c ∨ ∃ v : Word64, a = .set 0x00#8 v ∧ c.toNat = v.toNat % 256) : operationRequest a = some c := by
  obtain rfl | ⟨v, rfl, hc⟩ := h
  · rfl
  · have hv : v.setWidth 8 = c := by
      apply BitVec.eq_of_toNat_eq
      rw [BitVec.toNat_setWidth, hc]
    rw [operationRequest, if_pos (show 0x00#8 = 0 from rfl), hv]

/-- Settles O5. -/
theorem stepRunsTheDecodedOperation : Obligations.StepRunsTheDecodedOperation := by
  intro s a c rest i hpending hwrite hdecode
  have hfetch : fetchOperation c = .ok i := by rw [fetchOperation, hdecode]
  rw [step, hpending]
  simp only [operationRequest_of_write hwrite, hfetch]
  rfl

/-- Settles O13. -/
theorem resetLeavesTheResetValues : Obligations.ResetLeavesTheResetValues := by
  refine ⟨rfl, fun reg hreg => ?_, rfl, fun sp i => ?_⟩
  · unfold State.readReg
    split
    case h_10 h => exact absurd (BitVec.eq_of_toNat_eq h) hreg
    all_goals rfl
  · cases sp <;> rfl

/-! ### What an instruction leaves alone -/

@[simp] theorem State.clearFailure_mem (s : State) (sp : Space) : s.clearFailure.mem sp = s.mem sp := by
  cases sp <;> rfl

@[simp] theorem State.doneWith_mem (s : State) (code : Byte) (sp : Space) : (s.doneWith code).mem sp = s.mem sp := by
  cases sp <;> rfl

@[simp] theorem State.raised_mem (s : State) (e : ErrCode) (p : Nat) (code : Byte) (sp : Space) :
    (s.raised e p code).mem sp = s.mem sp := by
  cases sp <;> rfl

section
variable {i : Instr} {s t : State}

/-- An instruction leaves a part of the state alone if that holds no status field and the pseudocode leaves it alone. -/
theorem exec_keeps {α : Type} (part : State → α) (hbody : ∀ u, opBody i s = .ok u → part u = part s)
    (h : exec i s = .next t)
    (hstatus : ∀ (u : State) p e c l, part { u with phase := p, err := e, epos := c, lop := l } = part u := by
      intros; rfl) : part t = part s := by
  obtain ⟨-, rfl⟩ | ⟨-, rfl⟩ | ⟨-, rfl⟩ | ⟨-, u, hu, rfl⟩ | ⟨-, f, -, rfl⟩ := exec_cases h
  · rfl
  · exact hstatus s _ _ _ _
  · rfl
  · exact (hstatus u _ u.err u.epos _).trans (hbody u hu)
  · exact hstatus s _ _ _ _

/-- The same for what no pseudocode writes. -/
theorem exec_keeps_unwritten {α : Type} (part : Unwritten → α) (h : exec i s = .next t)
    (hstatus : ∀ (w : Unwritten) p e c l, part { w with phase := p, err := e, epos := c, lop := l } = part w := by
      intros; rfl) : part t.unwritten = part s.unwritten :=
  exec_keeps (fun u => part u.unwritten) (fun _ hu => congrArg part (opBody_unwritten hu)) h
    fun u => hstatus u.unwritten

/-- An instruction that is no decode changes at most the status fields, the three result registers and the output. -/
theorem exec_of_not_decode (hi : i.kind ≠ .decode) (h : exec i s = .next t) :
    t = { s with phase := t.phase, err := t.err, lop := t.lop, epos := t.epos, acc := t.acc, fval := t.fval,
                 txr := t.txr, ob := t.ob, olen := t.olen } := by
  obtain ⟨-, rfl⟩ | ⟨-, rfl⟩ | ⟨-, rfl⟩ | ⟨-, u, hu, rfl⟩ | ⟨-, f, -, rfl⟩ := exec_cases h
  · rfl
  · rfl
  · rfl
  · cases hk : i.kind with
    | encode =>
      obtain ⟨b, -, rfl⟩ := opBody_appendsTo hk hu
      rfl
    | utility =>
      obtain ⟨acc, fval, txr, rfl⟩ := opBody_utility hk hu
      rfl
    | decode => exact absurd hk hi
  · rfl

/-- Only an encode's pseudocode writes the output. -/
theorem opBody_keeps_output (hi : i.kind ≠ .encode) (h : opBody i s = .ok t) : t.ob = s.ob ∧ t.olen = s.olen := by
  cases hk : i.kind with
  | encode => exact absurd hk hi
  | utility =>
    obtain ⟨acc, fval, txr, rfl⟩ := opBody_utility hk h
    exact ⟨rfl, rfl⟩
  | decode =>
    have heffect := opBody_decodeEffect hk h
    exact ⟨heffect.ob, heffect.olen⟩

/-- A byte of the output is as it was, or one of the appended ones. -/
theorem State.AppendsTo.get? (h : s.AppendsTo t) (a : Nat) :
    Memory.get? t.ob a = Memory.get? s.ob a ∨ (s.olen.toNat ≤ a ∧ a < t.olen.toNat) := by
  obtain ⟨b, hb, rfl⟩ := h
  rw [State.appended_olen hb]
  by_cases ha : s.olen.toNat ≤ a ∧ a < s.olen.toNat + b.length
  · exact .inr ha
  · exact .inl (Memory.get?_setSeq_outside s.ob _ b a (by omega))

/-- Pseudocode writes only the bytes its rule names (R49; the table of 20_memory.md R60). -/
theorem opBody_get? (h : opBody i s = .ok t) (sp : Space) (a : Nat) :
    Memory.get? (t.mem sp) a = Memory.get? (s.mem sp) a ∨
    (sp = .ob ∧ i.kind = .encode ∧ s.olen.toNat ≤ a ∧ a < t.olen.toNat) ∨
    (sp = .pl ∧ i.StoresPayload ∧ a < t.plen.toNat) ∨ (sp = .rl ∧ i.StoresRelay ∧ a < t.rlen.toNat) := by
  cases hk : i.kind with
  | encode =>
    have happends := opBody_appendsTo hk h
    cases sp with
    | ob => exact (happends.get? a).imp_right fun ha => .inl ⟨rfl, rfl, ha⟩
    | ib | pl | rl =>
      obtain ⟨b, -, rfl⟩ := happends
      exact .inl rfl
  | utility =>
    obtain ⟨acc, fval, txr, rfl⟩ := opBody_utility hk h
    exact .inl (by cases sp <;> rfl)
  | decode =>
    have heffect := opBody_decodeEffect hk h
    cases sp with
    | ib => exact .inl (congrArg (fun w : Unwritten => Memory.get? w.ib a) (opBody_unwritten h))
    | ob => exact .inl (congrArg (Memory.get? · a) heffect.ob)
    | pl => exact (heffect.payload.get? (Config.payloadCap_lt _) a).imp_right fun ha => .inr (.inl ⟨rfl, ha⟩)
    | rl => exact (heffect.relay.get? (Config.relayCap_lt _) a).imp_right fun ha => .inr (.inr ⟨rfl, ha⟩)

end

/-- Settles O18. -/
theorem noOperationWritesTheInputSide : Obligations.NoOperationWritesTheInputSide := fun _ _ _ h =>
  ⟨exec_keeps_unwritten Unwritten.len h, exec_keeps_unwritten Unwritten.foff h,
    exec_keeps_unwritten Unwritten.fwid h, exec_keeps_unwritten Unwritten.ib h, exec_keeps_unwritten Unwritten.cfg h,
    exec_keeps_unwritten Unwritten.pending h, exec_keeps_unwritten Unwritten.epoch h⟩

/-- Settles O19: the listed instructions are those that are no decode. -/
theorem onlyDecodesMoveTheCursor : Obligations.OnlyDecodesMoveTheCursor := by
  intro i s t hi h
  rw [exec_of_not_decode (i.kind_ne_decode_iff.mpr hi) h]
  and_intros <;> rfl

/-- Settles O20. -/
theorem onlyEncodesWriteTheOutput : Obligations.OnlyEncodesWriteTheOutput := by
  intro i s t hi h
  have hkind : i.kind ≠ .encode := fun hk => hi (i.kind_eq_encode_iff.mp hk)
  exact ⟨exec_keeps State.ob (fun _ hu => (opBody_keeps_output hkind hu).1) h,
    exec_keeps State.olen (fun _ hu => (opBody_keeps_output hkind hu).2) h⟩

/-- Settles O60: only completion carries what the pseudocode wrote into the next state. -/
theorem operationsWriteOnlyTheirOwnBytes : Obligations.OperationsWriteOnlyTheirOwnBytes := by
  intro i s t sp a h
  obtain ⟨-, rfl⟩ | ⟨-, rfl⟩ | ⟨-, rfl⟩ | ⟨-, u, hu, rfl⟩ | ⟨-, f, -, rfl⟩ := exec_cases h
  · exact .inl rfl
  · exact .inl (by rw [State.clearFailure_mem])
  · exact .inl rfl
  · obtain hkept | ⟨hsp, hi, ha⟩ | ⟨hsp, hi, ha⟩ | ⟨hsp, hi, ha⟩ := opBody_get? hu sp a
    · exact .inl (by rwa [State.doneWith_mem])
    · exact .inr (.inl ⟨rfl, hsp, i.kind_eq_encode_iff.mp hi, ha⟩)
    · exact .inr (.inr (.inl ⟨rfl, hsp, hi, ha⟩))
    · exact .inr (.inr (.inr ⟨rfl, hsp, hi, ha⟩))
  · exact .inl (by rw [State.raised_mem])

end Sys2Proof.Machine
end

section
/-! PROOFS. The encoding (30_encoding.md): an `OP8` row is its code, and the codes without a row are those of R84; an
`FC16` row is its FrameControl word, which selects it by the frame type and loses its reserved bits; `DEC.FRM` is the row
of the word at the cursor; and the enumerated views give each tag number its meaning. -/

namespace Sys2Proof

/-! ### `OP8` rows (R82, R84) -/

open Laws.OpCodeDecodes in
/-- The lemmas per row of Sys2Proof/Laws/PerInstr.lean, for all rows. -/
theorem decodeOp_opCode (i : Instr) : Laws.OpCodeDecodes.Statement i := by
  cases i
  exacts [nop, clr, decU8, decU16, decU32, decU64, decBuf, encU8, encU16, encU32, encU64, encBuf, bfGet8, bfGet16,
    bfTst8, bfTst16, bfMake8, bfMake16, decFc, decMc, decSrs, decHdr, decCid, decFrm, txm, encFc, encMc, encSrs, encHdr, encCid,
    encFrm, decSc, decAux, encSc, encAux, nwkData _, nwkCmd _, nwkRsvd _, nwkInterPan _]

theorem encode_of_op8 {i : Instr} (h : i.format = .op8) : encode i = [i.opCode] := by
  cases i with
  | nwkData | nwkCmd | nwkRsvd | nwkInterPan => cases h
  | _ => rfl

theorem decode_op8 (c : Byte) (rest : List Byte) :
    decode .op8 (c :: rest) = (decodeOp c).map fun i => (i, rest) := by
  rw [decode]
  cases decodeOp c <;> rfl

/-- Every code is one that R84 lists, which the decoder refuses, or the code of a row. -/
theorem decodeOp_cases (c : Byte) :
    (Machine.IllegalCode c ∧ decodeOp c = .error (.unassigned c)) ∨
    (¬ Machine.IllegalCode c ∧ ∃ i, decodeOp c = .ok i ∧ i.format = .op8 ∧ i.opCode = c) := by
  unfold decodeOp
  split
  case h_36 => -- none of the 35 codes
    refine .inl ⟨?_, rfl⟩
    simp only [imp_false] at *
    omega
  all_goals
    next hc => exact .inr ⟨by omega, _, rfl, rfl, BitVec.eq_of_toNat_eq hc.symm⟩

/-! ### `FC16` rows (R105) -/

theorem decode_fc16_leBytes (v : Nat) (rest : List Byte) :
    decode .fc16 (leBytes 2 v ++ rest) = .ok (decodeFrameWord (BitVec.ofNat 16 v), rest) := by
  have hword : BitVec.ofNat 16 (leNat (leBytes 2 v)) = BitVec.ofNat 16 v := by
    rw [leNat_leBytes]
    exact BitVec.eq_of_toNat_eq (by simp)
  rw [← hword]
  rfl

theorem dropReservedFc_of_lt {w : Word16} (h : w.toNat < 0x4000) : dropReservedFc w = w :=
  BitVec.eq_of_toNat_eq (by rw [dropReservedFc_toNat, Nat.mod_eq_of_lt h])

theorem mod_four_cases (n : Nat) : n % 4 = 0 ∨ n % 4 = 1 ∨ n % 4 = 2 ∨ n % 4 = 3 := by omega

/-- The frame type selects the row (R86). -/
theorem decodeFrameWord_cases (w : Word16) :
    (w.toNat % 4 = 0 ∧ decodeFrameWord w = .nwkData (dropReservedFc w)) ∨
    (w.toNat % 4 = 1 ∧ decodeFrameWord w = .nwkCmd (dropReservedFc w)) ∨
    (w.toNat % 4 = 2 ∧ decodeFrameWord w = .nwkRsvd (dropReservedFc w)) ∨
    (w.toNat % 4 = 3 ∧ decodeFrameWord w = .nwkInterPan (dropReservedFc w)) := by
  obtain h | h | h | h := mod_four_cases w.toNat <;> simp [decodeFrameWord, h]

theorem encode_decodeFrameWord (w : Word16) : encode (decodeFrameWord w) = leBytes 2 (w.toNat % 0x4000) := by
  rw [← dropReservedFc_toNat]
  obtain ⟨-, h⟩ | ⟨-, h⟩ | ⟨-, h⟩ | ⟨-, h⟩ := decodeFrameWord_cases w <;> rw [h] <;> rfl

theorem frameTagIs_iff (tag : Nat) (fc : Word16) : frameTagIs tag fc = true ↔ fc.toNat % 4 = tag := by
  simp [frameTagIs]

theorem reservedClear_iff (fc : Word16) : reservedClear fc = true ↔ fc.toNat < 0x4000 := by
  simp [reservedClear]

theorem reservedClear_dropReservedFc (w : Word16) : reservedClear (dropReservedFc w) = true :=
  (reservedClear_iff _).mpr (Machine.dropReservedFc_lt w)

theorem frameTagIs_dropReservedFc (tag : Nat) (w : Word16) :
    frameTagIs tag (dropReservedFc w) = true ↔ w.toNat % 4 = tag := by
  rw [frameTagIs_iff, dropReservedFc_toNat, Nat.mod_mod_of_dvd _ (by decide)]

theorem decodeFrameWord_wf (w : Word16) : (decodeFrameWord w).wf = true := by
  obtain ⟨ht, h⟩ | ⟨ht, h⟩ | ⟨ht, h⟩ | ⟨ht, h⟩ := decodeFrameWord_cases w <;>
    simp [h, Instr.wf, frameTagIs_dropReservedFc, ht, reservedClear_dropReservedFc]

/-- A well-formed wire row is the row of its own word. -/
theorem exists_word_of_fc16 {i : Instr} (hformat : i.format = .fc16) (hwf : i.wf = true) :
    ∃ w : Word16, encode i = leBytes 2 w.toNat ∧ decodeFrameWord w = i := by
  cases i with
  | nwkData w | nwkCmd w | nwkRsvd w | nwkInterPan w =>
    simp only [Instr.wf, Bool.and_eq_true, frameTagIs_iff, reservedClear_iff] at hwf
    obtain ⟨htag, hclear⟩ := hwf
    exact ⟨w, rfl, by simp [decodeFrameWord, htag, dropReservedFc_of_lt hclear]⟩
  | _ => cases hformat

/-! ### Decode and encode -/

/-- Settles O1. -/
theorem tableWordsDecodeToTheirRows : Obligations.TableWordsDecodeToTheirRows := by
  and_intros <;> rfl

/-- Settles O2, by the two formats. -/
theorem decodeOfEncodeIsTheInstruction : Obligations.DecodeOfEncodeIsTheInstruction := by
  intro i rest hwf
  cases hformat : i.format with
  | op8 =>
    rw [encode_of_op8 hformat, List.singleton_append, decode_op8, decodeOp_opCode i hformat]
    rfl
  | fc16 =>
    obtain ⟨w, hencode, hdecode⟩ := exists_word_of_fc16 hformat hwf
    rw [hencode, decode_fc16_leBytes, BitVec.ofNat_toNat, BitVec.setWidth_eq, hdecode]

/-- Settles O3. -/
theorem refusedCodesAreExactlyTheIllegalOnes : Obligations.RefusedCodesAreExactlyTheIllegalOnes := by
  intro c
  obtain ⟨hillegal, hc⟩ | ⟨hlegal, i, hc, hformat, hcode⟩ := decodeOp_cases c
  · exact ⟨fun _ => by rw [decode_op8, hc]; rfl, fun h => absurd hillegal h⟩
  · exact ⟨fun h => absurd h hlegal,
      fun _ => ⟨i, by rw [decode_op8, hc]; rfl, hformat, by rw [encode_of_op8 hformat, hcode]⟩⟩

/-- Settles O4. -/
theorem frameWordLosesOnlyReservedBits : Obligations.FrameWordLosesOnlyReservedBits := fun w =>
  ⟨decodeFrameWord_wf w, by rw [encode_decodeFrameWord, Machine.leBytes_eq_wireBytes]⟩

end Sys2Proof

namespace Sys2Proof.Machine

/-! ### The enumerated views (R153 to R155, 42_nwk_frame.md R176) -/

theorem frameType_iff (fc : Word16) :
    (frameType fc = .data ↔ fc.toNat % 4 = 0) ∧ (frameType fc = .nwkCommand ↔ fc.toNat % 4 = 1) ∧
    (frameType fc = .reserved ↔ fc.toNat % 4 = 2) ∧ (frameType fc = .interPan ↔ fc.toNat % 4 = 3) := by
  have hslice : slice fc.toNat 1 0 = fc.toNat % 4 := by simp [slice]
  obtain h | h | h | h := mod_four_cases fc.toNat <;> simp [frameType, hslice, h]

theorem discoverRoute_iff (fc : Word16) :
    (discoverRoute fc = .suppress ↔ fc.toNat / 64 % 4 = 0) ∧ (discoverRoute fc = .enable ↔ fc.toNat / 64 % 4 = 1) ∧
    (discoverRoute fc = .reserved ↔ 2 ≤ fc.toNat / 64 % 4) := by
  have hslice : slice fc.toNat 7 6 = fc.toNat / 64 % 4 := rfl
  obtain h | h | h | h := mod_four_cases (fc.toNat / 64) <;> simp [discoverRoute, hslice, h]

theorem mcMode_iff (b : Byte) :
    (mcMode b = .nonMember ↔ b.toNat / 64 = 0) ∧ (mcMode b = .member ↔ b.toNat / 64 = 1) ∧
    (mcMode b = .reserved ↔ 2 ≤ b.toNat / 64) := by
  have hslice : slice b.toNat 7 6 = b.toNat / 64 % 4 := rfl
  have htop : b.toNat / 64 = b.toNat / 64 % 4 := by have := b.isLt; omega
  rw [htop]
  obtain h | h | h | h := mod_four_cases (b.toNat / 64) <;> simp [mcMode, hslice, h]

theorem keyIdentifier_iff (b : Byte) :
    (keyIdentifier b = .data ↔ b.toNat / 8 % 4 = 0) ∧ (keyIdentifier b = .network ↔ b.toNat / 8 % 4 = 1) ∧
    (keyIdentifier b = .keyTransport ↔ b.toNat / 8 % 4 = 2) ∧ (keyIdentifier b = .keyLoad ↔ b.toNat / 8 % 4 = 3) := by
  have hslice : slice b.toNat 4 3 = b.toNat / 8 % 4 := rfl
  obtain h | h | h | h := mod_four_cases (b.toNat / 8) <;> simp [keyIdentifier, hslice, h]

/-- `CMD_MAX` fits its byte (00_scope.md R7). -/
@[simp] theorem Config.cmdMax_toNat (c : Config) : c.cmdMax.toNat = c.cmdMaxLessOne.val + 1 := by
  have h := c.cmdMaxLessOne.isLt
  rw [Config.cmdMax, BitVec.toNat_ofNat]
  omega

theorem cmdClass_eq_known_iff (c : Config) (cid : Byte) :
    cmdClass c cid = .known ↔ 1 ≤ cid.toNat ∧ cid.toNat ≤ c.cmdMaxLessOne.val + 1 := by
  rw [cmdClass, Config.cmdMax_toNat]
  split
  next h => exact iff_of_true rfl h
  next h => exact iff_of_false (fun h => nomatch h) h

/-- Settles O30, view by view. -/
theorem tagNumbersHaveTheirMeanings : Obligations.TagNumbersHaveTheirMeanings := by
  refine ⟨fun fc => ?_, fun b => ?_, cmdClass_eq_known_iff⟩
  · obtain ⟨hdata, hcommand, hreserved, hinterPan⟩ := frameType_iff fc
    exact ⟨hdata, hcommand, hreserved, hinterPan, discoverRoute_iff fc⟩
  · obtain ⟨hnonMember, hmember, hreserved⟩ := mcMode_iff b
    exact ⟨hnonMember, hmember, hreserved, keyIdentifier_iff b⟩

/-! ### `DEC.FRM` and the wire rows (R105, R177) -/

/-- The reserved bits select no arm (R100). -/
theorem frameType_dropReservedFc (w : Word16) : frameType (dropReservedFc w) = frameType w := by
  have htag : slice (dropReservedFc w).toNat 1 0 = slice w.toNat 1 0 := by
    simp only [slice, dropReservedFc_toNat]
    omega
  rw [frameType, htag]
  rfl

theorem decodeArm_dropReservedFc (w : Word16) : decodeArm (dropReservedFc w) = decodeArm w := by
  funext s
  rw [decodeArm, frameType_dropReservedFc]
  rfl

theorem decodeArm_eq_data {fc : Word16} (h : fc.toNat % 4 = 0) : decodeArm fc = decodeArmData := by
  obtain ⟨hdata, -⟩ := frameType_iff fc
  funext s
  rw [decodeArm, hdata.mpr h]

theorem decodeArm_eq_command {fc : Word16} (h : fc.toNat % 4 = 1) : decodeArm fc = decodeArmCommand := by
  obtain ⟨-, hcommand, -⟩ := frameType_iff fc
  funext s
  rw [decodeArm, hcommand.mpr h]

theorem decodeArm_eq_reserved {fc : Word16} (h : fc.toNat % 4 = 2) : decodeArm fc = decodeArmReserved := by
  obtain ⟨-, -, hreserved, -⟩ := frameType_iff fc
  funext s
  rw [decodeArm, hreserved.mpr h]

theorem decodeArm_eq_interPan {fc : Word16} (h : fc.toNat % 4 = 3) : decodeArm fc = decodeArmInterPan := by
  obtain ⟨-, -, -, hinterPan⟩ := frameType_iff fc
  funext s
  rw [decodeArm, hinterPan.mpr h]

/-- The row of a word is the frame decode with that word and the arm of its frame type. -/
theorem exec_decodeFrameWord (w : Word16) (s : State) :
    exec (decodeFrameWord w) s = runOp 0x45#8 (decodeFrameAs (dropReservedFc w) (decodeArm w)) s := by
  obtain ⟨ht, h⟩ | ⟨ht, h⟩ | ⟨ht, h⟩ | ⟨ht, h⟩ := decodeFrameWord_cases w
  · rw [h, decodeArm_eq_data ht]; rfl
  · rw [h, decodeArm_eq_command ht]; rfl
  · rw [h, decodeArm_eq_reserved ht]; rfl
  · rw [h, decodeArm_eq_interPan ht]; rfl

/-- A decoded header holds the FrameControl word that steered its decode. -/
theorem State.takeHeaderAfter_fc {fc : Word16} {s t : State} {hd : Header} (h : s.takeHeaderAfter fc = .ok (hd, t)) :
    hd.fc = fc := by
  iterate 8 obtain ⟨_, -, h⟩ := except_bind_ok h
  cases h
  rfl

/-- The frame decode reads its FrameControl word at the cursor, and that word steers the rest. -/
theorem decodeFrame_eq_decodeFrameAs {s : State} (h : s.cur.toNat + 2 ≤ s.len.toNat) :
    decodeFrame s = decodeFrameAs (dropReservedFc s.nextFc) (decodeArm s.nextFc) s := by
  have htake := State.take_of_le (s := s) (n := 2) (by omega)
  rw [decodeFrame, State.takeHeader, decodeFrameAs, htake, dropReservedFc_idem]
  change (State.takeHeaderAfter (dropReservedFc s.nextFc) _ >>= _) =
    (State.takeHeaderAfter (dropReservedFc s.nextFc) _ >>= _)
  cases hheader : State.takeHeaderAfter (dropReservedFc s.nextFc) _ with
  | error f => rfl
  | ok r =>
    obtain ⟨hd, u⟩ := r
    change decodeArm hd.fc _ = decodeArm s.nextFc _
    rw [State.takeHeaderAfter_fc hheader, decodeArm_dropReservedFc]

/-- The operation cycle sees of the pseudocode only what it does on the state. -/
theorem runOp_congr {code : Byte} {body body' : State → Except Failure State} {s : State} (h : body s = body' s) :
    runOp code body s = runOp code body' s := by
  rw [runOp, runOp, h]

theorem exec_decFrm_eq_exec_row {s : State} (h : s.cur.toNat + 2 ≤ s.len.toNat) :
    exec .decFrm s = exec (decodeFrameWord s.nextFc) s := by
  rw [exec_decodeFrameWord]
  exact runOp_congr (decodeFrame_eq_decodeFrameAs h)

/-- Settles O6. -/
theorem decFrmRunsTheRowOfTheFrameWord : Obligations.DecFrmRunsTheRowOfTheFrameWord := by
  intro s h
  refine ⟨exec_decFrm_eq_exec_row h, fun rest => ?_⟩
  have hstep : step { s with pending := .op 0x45#8 :: rest } = exec .decFrm { s with pending := rest } :=
    stepRunsTheDecodedOperation _ (.op 0x45#8) _ rest .decFrm rfl (.inl rfl) rfl
  exact hstep.trans (exec_decFrm_eq_exec_row (s := { s with pending := rest }) h)

end Sys2Proof.Machine
end

section
/-! PROOFS. The primitives of the codec (40_codec_primitives.md R120 to R134), and `DEC.AUX` as its parts in order
(R130).

An operation is its code and its pseudocode (`RunsAs`), and the pseudocode of a primitive has one equation where the
bytes fit and one where they do not. The round trips rest on two facts: bytes appended to an empty output are all it
holds (`Appended.output`), and a load makes its bytes the scope (`State.scopeIs_load`). `DEC.AUX` is its parts because a
`Take` reads the input side alone, and each part moves that side as the `Take` it stands for does. -/

namespace Sys2Proof.Machine

/-! ### Bytes written and read back -/

section
variable {s t : State} {sp : Space} {m : Memory} {x : Nat} {b : List Byte}

theorem State.readByte_of_setSeq (hm : t.mem sp = Memory.setSeq m x b) {i : Nat} (h : i < b.length) :
    t.readByte sp (x + i) = b[i] := by
  rw [State.readByte_def, hm, Memory.get?_setSeq_inside m x b i h, Option.getD_some]

theorem State.readByte_of_setSeq_outside (he : t.epoch = s.epoch) (hm : t.mem sp = Memory.setSeq (s.mem sp) x b)
    {a : Nat} (h : a < x ∨ x + b.length ≤ a) : t.readByte sp a = s.readByte sp a :=
  State.readByte_congr he (by rw [hm, Memory.get?_setSeq_outside _ x b a h])

theorem State.readBytes_of_setSeq (hm : t.mem sp = Memory.setSeq m x b) : t.readBytes sp x b.length = b := by
  apply List.ext_getElem
  · rw [State.readBytes_length]
  · intro i _ hi
    rw [State.readBytes_getElem, State.readByte_of_setSeq hm hi]

theorem stored_of_setSeq (he : t.epoch = s.epoch) (hm : t.mem sp = Memory.setSeq (s.mem sp) 0 b) : Stored sp b s t :=
  ⟨fun i hi => by rw [← State.readByte_of_setSeq hm hi, Nat.zero_add],
    fun _ ha => State.readByte_of_setSeq_outside he hm (.inr (by omega))⟩

end

theorem appended_doneWith (code : Byte) (b : List Byte) (s : State) :
    Appended code b s ((s.appended b).doneWith code) := by
  have hob : ((s.appended b).doneWith code).mem .ob = Memory.setSeq (s.mem .ob) s.olen.toNat b := rfl
  have hepoch : ((s.appended b).doneWith code).epoch = s.epoch := rfl
  exact ⟨rfl, fun _ hi => State.readByte_of_setSeq hob hi,
    fun _ ha => State.readByte_of_setSeq_outside hepoch hob ha⟩

/-- Bytes appended to an empty output are all it holds (10_state.md R45). -/
theorem Appended.output {code : Byte} {b : List Byte} {s t : State} (h : Appended code b s t) (hempty : s.olen = 0)
    (hfit : b.length ≤ s.cfg.obCap) : t.olen.toNat = b.length ∧ t.output = b := by
  obtain ⟨hstate, hbytes, -⟩ := h
  have holen : t.olen.toNat = b.length := by
    rw [hstate, hempty]
    exact (congrArg (fun k => (BitVec.ofNat 16 k).toNat) (Nat.zero_add b.length)).trans
      (toNat_ofNat_of_le_cap (Config.obCap_lt s.cfg) hfit)
  refine ⟨holen, List.ext_getElem (by rw [State.output, State.readBytes_length, holen]) fun i _ hi => ?_⟩
  rw [← hbytes i hi, hempty]
  exact State.readBytes_getElem t .ob 0 _ i _

theorem State.payload_setPayload {s : State} {p : List Byte} (hp : p.length < 65536) :
    (s.setPayload p).payload = p := by
  have hplen : (s.setPayload p).plen.toNat = p.length := by
    rw [State.setPayload_plen, BitVec.toNat_ofNat]
    omega
  have hpl : (s.setPayload p).mem .pl = Memory.setSeq s.pl 0 p := rfl
  rw [State.payload, hplen, State.readBytes_of_setSeq hpl]

theorem State.payload_eq_payloadBytes (s : State) : s.payload = s.payloadBytes := by
  rw [State.payload, State.readBytes_eq_ofFn, State.payloadBytes]
  simp only [Nat.zero_add]

theorem State.payloadBytes_length (s : State) : s.payloadBytes.length = s.plen.toNat := by
  rw [State.payloadBytes, List.length_ofFn]

theorem wireBytes_length (n v : Nat) : (wireBytes n v).length = n := by
  rw [wireBytes, List.length_ofFn]

/-- A loaded sequence is the whole scope, from its start (44_control_and_host.md R224). -/
theorem hostAct_load {s : State} {b : List Byte} (h : b.length ≤ s.cfg.ibCap) :
    hostAct (.load b) s = { s with ib := Memory.setSeq s.ib 0 b, len := BitVec.ofNat 16 b.length, cur := 0 } :=
  if_pos h

/-! ### Operations by code and pseudocode -/

/-- The operation of the code `c` is one operation cycle (10_state.md R21) around the pseudocode `body`. -/
structure RunsAs (i : Instr) (c : Byte) (body : State → Except Failure State) : Prop where
  encoded : EncodedAs c i
  exec_eq : ∀ s, exec i s = runOp c body s

section
variable {i : Instr} {c : Byte} {body : State → Except Failure State} {s t : State}

theorem RunsAs.next_of_ok (hi : RunsAs i c body) (hp : s.phase ≠ .failed) (h : body s = .ok t) :
    exec i s = .next (t.doneWith c) := by
  rw [hi.exec_eq, runOp_of_ok hp h, State.complete_eq_doneWith]

theorem RunsAs.next_of_error {e : ErrCode} {p : Nat} (hi : RunsAs i c body) (hp : s.phase ≠ .failed)
    (h : body s = .error ⟨e, p⟩) : exec i s = .next (s.raised e p c) := by
  rw [hi.exec_eq, runOp_of_error hp h, State.fail_eq_raised]

/-- An operation that leaves `Done` ran its pseudocode to its end. -/
theorem RunsAs.ok_of_done (hi : RunsAs i c body) (hp : s.phase ≠ .failed) (h : exec i s = .next t)
    (hdone : t.phase = .done) : ∃ u, body s = .ok u ∧ t = u.doneWith c := by
  rw [hi.exec_eq] at h
  obtain ⟨hp', -⟩ | ⟨-, u, hu, rfl⟩ | ⟨-, f, -, rfl⟩ := runOp_cases h
  · exact absurd hp' hp
  · exact ⟨u, hu, rfl⟩
  · cases hdone

end

theorem runsAs_opBody {i : Instr} (hformat : i.format = .op8) (hnop : i ≠ .nop) (hclr : i ≠ .clr) :
    RunsAs i i.opCode (opBody i) :=
  ⟨⟨by rw [decode_op8, decodeOp_opCode i hformat]; rfl, rfl⟩, fun s => exec_eq_runOp i s hnop hclr⟩

/-- R120 to R123. -/
theorem integerDecode_runsAs {i : Instr} {c : Byte} {n : Nat}
    (h : (i, c, n) ∈ [(Instr.decU8, 0x10#8, 1), (.decU16, 0x11#8, 2), (.decU32, 0x12#8, 4), (.decU64, 0x13#8, 8)]) :
    RunsAs i c (decodeAcc n) := by
  simp only [List.mem_cons, Prod.mk.injEq, List.not_mem_nil, or_false] at h
  obtain ⟨rfl, rfl, rfl⟩ | ⟨rfl, rfl, rfl⟩ | ⟨rfl, rfl, rfl⟩ | ⟨rfl, rfl, rfl⟩ := h <;>
    exact runsAs_opBody rfl nofun nofun

/-- R125 to R128. -/
theorem integerEncode_runsAs {i : Instr} {c : Byte} {n : Nat}
    (h : (i, c, n) ∈ [(Instr.encU8, 0x20#8, 1), (.encU16, 0x21#8, 2), (.encU32, 0x22#8, 4), (.encU64, 0x23#8, 8)]) :
    RunsAs i c (encodeAcc n) := by
  simp only [List.mem_cons, Prod.mk.injEq, List.not_mem_nil, or_false] at h
  obtain ⟨rfl, rfl, rfl⟩ | ⟨rfl, rfl, rfl⟩ | ⟨rfl, rfl, rfl⟩ | ⟨rfl, rfl, rfl⟩ := h <;>
    exact runsAs_opBody rfl nofun nofun

/-- The pairs of an encode and a decode of one width, which is at most that of `ACC`. -/
theorem integerPair_runsAs {e d : Instr} {n : Nat}
    (h : (e, d, n) ∈
      [(Instr.encU8, Instr.decU8, 1), (.encU16, .decU16, 2), (.encU32, .decU32, 4), (.encU64, .decU64, 8)]) :
    n ≤ 8 ∧ RunsAs e e.opCode (encodeAcc n) ∧ RunsAs d d.opCode (decodeAcc n) := by
  simp only [List.mem_cons, Prod.mk.injEq, List.not_mem_nil, or_false] at h
  obtain ⟨rfl, rfl, rfl⟩ | ⟨rfl, rfl, rfl⟩ | ⟨rfl, rfl, rfl⟩ | ⟨rfl, rfl, rfl⟩ := h <;>
    exact ⟨by decide, runsAs_opBody rfl nofun nofun, runsAs_opBody rfl nofun nofun⟩

theorem decU8_runsAs : RunsAs .decU8 0x10#8 (decodeAcc 1) := runsAs_opBody rfl nofun nofun

theorem decU32_runsAs : RunsAs .decU32 0x12#8 (decodeAcc 4) := runsAs_opBody rfl nofun nofun

theorem decU64_runsAs : RunsAs .decU64 0x13#8 (decodeAcc 8) := runsAs_opBody rfl nofun nofun

theorem decBuf_runsAs : RunsAs .decBuf 0x14#8 decodePayload := runsAs_opBody rfl nofun nofun

theorem encBuf_runsAs : RunsAs .encBuf 0x24#8 encodePayload := runsAs_opBody rfl nofun nofun

theorem decSc_runsAs : RunsAs .decSc 0x60#8 decodeSc := runsAs_opBody rfl nofun nofun

theorem decAux_runsAs : RunsAs .decAux 0x61#8 decodeAux := runsAs_opBody rfl nofun nofun

/-! ### The pseudocode of the primitives -/

theorem decodeAcc_of_take {s t : State} {n v : Nat} (h : s.take n = .ok (v, t)) :
    decodeAcc n s = .ok { t with acc := BitVec.ofNat 64 v } := by
  rw [decodeAcc, h]
  rfl

theorem decodeAcc_of_lt {s : State} {n : Nat} (h : s.len.toNat - s.cur.toNat < n) :
    decodeAcc n s = .error ⟨.insufficientBytes, s.cur.toNat⟩ := by
  rw [decodeAcc, State.take_of_lt h]
  rfl

theorem decodePayload_of_takeRest {s t : State} {p : List Byte} (h : s.takeRest s.cfg.payloadCap = .ok (p, t)) :
    decodePayload s = .ok (t.setPayload p) := by
  rw [decodePayload, h]
  rfl

theorem decodePayload_of_lt {s : State} (h : s.cfg.payloadCap < s.len.toNat - s.cur.toNat) :
    decodePayload s = .error ⟨.capacityExceeded, s.cur.toNat⟩ := by
  rw [decodePayload, State.takeRest_of_lt h]
  rfl

theorem State.putSeq_eq_appended {s : State} {b : List Byte} (h : s.olen.toNat + b.length ≤ s.cfg.obCap) :
    s.putSeq b = .ok (s.appended b) :=
  State.putSeq_of_le h

theorem encodeAcc_eq_putSeq (n : Nat) (s : State) : encodeAcc n s = s.putSeq (wireBytes n s.acc.toNat) := by
  rw [encodeAcc, State.put, leBytes_eq_wireBytes]

theorem encodePayload_eq_putSeq (s : State) : encodePayload s = s.putSeq s.payloadBytes := by
  rw [encodePayload, State.payload_eq_payloadBytes]

/-- An operation whose pseudocode appends the bytes `b` does so, or fails at `OLEN`. -/
theorem RunsAs.appends {i : Instr} {c : Byte} {body : State → Except Failure State} {s : State} {b : List Byte}
    (hi : RunsAs i c body) (hp : s.phase ≠ .failed) (hbody : body s = s.putSeq b) :
    (s.olen.toNat + b.length ≤ s.cfg.obCap → ∃ t, exec i s = .next t ∧ Appended c b s t) ∧
    (s.cfg.obCap < s.olen.toNat + b.length → exec i s = .next (s.raised .capacityExceeded s.olen.toNat c)) :=
  ⟨fun hfit => ⟨_, hi.next_of_ok hp (hbody.trans (State.putSeq_eq_appended hfit)), appended_doneWith c b s⟩,
    fun hover => hi.next_of_error hp (hbody.trans (State.putSeq_of_lt hover))⟩

/-- Settles O21. -/
theorem integerDecodesTakeLittleEndian : Obligations.IntegerDecodesTakeLittleEndian := by
  intro s i c n hrow hp
  have hi := integerDecode_runsAs hrow
  exact ⟨hi.encoded, fun hfit => hi.next_of_ok hp (decodeAcc_of_take (State.take_of_le (by omega))),
    fun hshort => hi.next_of_error hp (decodeAcc_of_lt hshort)⟩

/-- Settles O22. -/
theorem decBufTakesTheRestOrFails : Obligations.DecBufTakesTheRestOrFails := by
  refine ⟨decBuf_runsAs.encoded, fun s hp => ⟨fun hfit => ?_, fun hover => ?_⟩⟩
  · have hdecode := decodePayload_of_takeRest (State.takeRest_of_le hfit)
    refine ⟨_, decBuf_runsAs.next_of_ok hp hdecode, ?_, ?_⟩
    · rw [State.setPayload, State.readBytes_length]
      rfl
    · rw [State.scope, ← State.readBytes_eq_ofFn]
      exact stored_of_setSeq rfl rfl
  · exact decBuf_runsAs.next_of_error hp (decodePayload_of_lt hover)

/-- Settles O23. -/
theorem integerEncodesAppendTheLowBytes : Obligations.IntegerEncodesAppendTheLowBytes := by
  intro s i c n hrow hp
  have hi := integerEncode_runsAs hrow
  have happends := hi.appends hp (encodeAcc_eq_putSeq n s)
  rw [wireBytes_length] at happends
  exact ⟨hi.encoded, happends⟩

/-- Settles O24. -/
theorem encBufAppendsThePayload : Obligations.EncBufAppendsThePayload := by
  refine ⟨encBuf_runsAs.encoded, fun s hp => ?_⟩
  have happends := encBuf_runsAs.appends hp (encodePayload_eq_putSeq s)
  rwa [State.payloadBytes_length] at happends

/-! ### Round trips (R134) -/

/-- `bytes_n` of a decoded number are the bytes it was decoded from (00_scope.md R12). -/
theorem State.wireBytes_wire (s : State) (a n : Nat) : wireBytes n (s.wire a n) = s.readBytes .ib a n := by
  have hbytes := leBytes_leNat (s.readBytes .ib a n)
  rwa [State.readBytes_length, State.leNat_readBytes, leBytes_eq_wireBytes] at hbytes

/-- `ACC` is wide enough for every integer decode. -/
theorem State.toNat_ofNat_wire (s : State) (a : Nat) {n : Nat} (hn : n ≤ 8) :
    (BitVec.ofNat 64 (s.wire a n)).toNat = s.wire a n := by
  have hpow : 256 ^ n ≤ 256 ^ 8 := Nat.pow_le_pow_right (by decide) hn
  rw [BitVec.toNat_ofNat]
  exact Nat.mod_eq_of_lt ((s.wire_lt a n).trans_le hpow)

/-- The scope is the bytes `b` from the start of `IB` to `LEN`, with nothing taken yet. -/
structure State.ScopeIs (s : State) (b : List Byte) : Prop where
  cur : s.cur.toNat = 0
  len : s.len.toNat = b.length
  bytes : s.readBytes .ib 0 b.length = b

/-- A load makes its bytes the scope (44_control_and_host.md R224). -/
theorem State.scopeIs_load {s : State} {b : List Byte} (h : b.length ≤ s.cfg.ibCap) :
    (hostAct (.load b) s).ScopeIs b := by
  rw [hostAct_load h]
  exact ⟨rfl, toNat_ofNat_of_le_cap (Config.ibCap_lt s.cfg) h, State.readBytes_of_setSeq (m := s.ib) rfl⟩

theorem State.ScopeIs.take {s : State} {b : List Byte} (h : s.ScopeIs b) :
    ∃ t, s.take b.length = .ok (leNat b, t) := by
  have htake := State.take_of_le (s := s) (n := b.length) (by rw [h.cur, h.len, Nat.sub_zero])
  rw [← State.leNat_readBytes, h.cur, h.bytes] at htake
  exact ⟨_, htake⟩

theorem State.ScopeIs.takeRest {s : State} {b : List Byte} {cap : Nat} (h : s.ScopeIs b) (hb : b.length ≤ cap) :
    ∃ t, s.takeRest cap = .ok (b, t) := by
  have hrest := State.takeRest_of_le (s := s) (cap := cap) (by rwa [h.cur, h.len, Nat.sub_zero])
  rw [h.cur, h.len, Nat.sub_zero, h.bytes] at hrest
  exact ⟨_, hrest⟩

section
variable {s : State} {e d : Instr} {ce cd : Byte}

/-- What an encode appended to an empty output is, looped back by the host (30_encoding.md R107), the scope of the next
operation. -/
theorem RunsAs.loopback {body : State → Except Failure State} {b : List Byte} (he : RunsAs e ce body)
    (hbody : body s = s.putSeq b) (hp : s.phase ≠ .failed) (hempty : s.olen = 0) (hob : b.length ≤ s.cfg.obCap)
    (hib : b.length ≤ s.cfg.ibCap) :
    ∃ t, exec e s = .next t ∧ (hostAct (.load t.output) t).phase = .done ∧
      (hostAct (.load t.output) t).cfg = s.cfg ∧ (hostAct (.load t.output) t).ScopeIs b := by
  have hfit : s.olen.toNat + b.length ≤ s.cfg.obCap := by simpa [hempty] using hob
  obtain ⟨t, ht, happended⟩ := (he.appends hp hbody).1 hfit
  obtain ⟨-, houtput⟩ := happended.output hempty hob
  obtain ⟨hstate, -, -⟩ := happended
  have hcfg : t.cfg = s.cfg := by rw [hstate]
  have hdone : t.phase = .done := by rw [hstate]
  refine ⟨t, ht, ?_, by rw [hostAct_cfg, hcfg], ?_⟩
  · rw [houtput, hostAct_load (hcfg ▸ hib), ← hdone]
  · rw [houtput]
    exact State.scopeIs_load (hcfg ▸ hib)

/-- Encode first. -/
theorem integer_encode_decode {n : Nat} (he : RunsAs e ce (encodeAcc n)) (hd : RunsAs d cd (decodeAcc n))
    (hp : s.phase ≠ .failed) (hempty : s.olen = 0) (hob : n ≤ s.cfg.obCap) (hib : n ≤ s.cfg.ibCap)
    (hacc : s.acc.toNat < 256 ^ n) :
    ∃ t u, exec e s = .next t ∧ exec d (hostAct (.load t.output) t) = .next u ∧ u.phase = .done ∧ u.acc = s.acc := by
  have hlength := wireBytes_length n s.acc.toNat
  obtain ⟨t, ht, hdone, -, hscope⟩ := he.loopback (encodeAcc_eq_putSeq n s) hp hempty (by omega) (by omega)
  obtain ⟨u, htake⟩ := hscope.take
  rw [hlength, ← leBytes_eq_wireBytes, leNat_leBytes, Nat.mod_eq_of_lt hacc] at htake
  exact ⟨t, _, ht, hd.next_of_ok (by simp [hdone]) (decodeAcc_of_take htake), rfl,
    (BitVec.ofNat_toNat 64 s.acc).trans s.acc.setWidth_eq⟩

/-- Decode first. -/
theorem integer_decode_encode {n : Nat} (hn : n ≤ 8) (he : RunsAs e ce (encodeAcc n)) (hd : RunsAs d cd (decodeAcc n))
    (hp : s.phase ≠ .failed) (hempty : s.olen = 0) (hob : n ≤ s.cfg.obCap) (hfit : s.cur.toNat + n ≤ s.len.toNat) :
    ∃ t u, exec d s = .next t ∧ exec e t = .next u ∧ u.phase = .done ∧ u.olen.toNat = n ∧
      ∀ a, a < n → u.readByte .ob a = s.readByte .ib (s.cur.toNat + a) := by
  obtain ⟨t, hdecode, hacc, hcfg, holen, hdone⟩ :
      ∃ t, exec d s = .next t ∧ t.acc.toNat = s.wire s.cur.toNat n ∧ t.cfg = s.cfg ∧ t.olen = 0 ∧ t.phase = .done :=
    ⟨_, hd.next_of_ok hp (decodeAcc_of_take (State.take_of_le (by omega))), s.toNat_ofNat_wire _ hn, rfl, hempty, rfl⟩
  have hbody : encodeAcc n t = t.putSeq (s.readBytes .ib s.cur.toNat n) := by
    rw [encodeAcc_eq_putSeq, hacc, State.wireBytes_wire]
  have hob' : t.olen.toNat + (s.readBytes .ib s.cur.toNat n).length ≤ t.cfg.obCap := by
    simpa [holen, hcfg] using hob
  obtain ⟨u, hu, happended⟩ := (he.appends (by simp [hdone]) hbody).1 hob'
  obtain ⟨huolen, -⟩ := happended.output holen (by simpa [hcfg] using hob)
  rw [State.readBytes_length] at huolen
  obtain ⟨hstate, hbytes, -⟩ := happended
  refine ⟨t, u, hdecode, hu, by rw [hstate], huolen, fun a ha => ?_⟩
  have hbyte := hbytes a (by simpa using ha)
  simpa [holen, State.readBytes_getElem] using hbyte

/-- A payload, encoded, looped back and decoded. -/
theorem payload_encode_decode (hp : s.phase ≠ .failed) (hempty : s.olen = 0)
    (hpl : s.plen.toNat ≤ s.cfg.payloadCap) (hob : s.plen.toNat ≤ s.cfg.obCap) (hib : s.plen.toNat ≤ s.cfg.ibCap) :
    ∃ t u, exec .encBuf s = .next t ∧ exec .decBuf (hostAct (.load t.output) t) = .next u ∧ u.phase = .done ∧
      u.payloadBytes = s.payloadBytes := by
  have hlength := s.payloadBytes_length
  obtain ⟨t, ht, hdone, hcfg, hscope⟩ :=
    encBuf_runsAs.loopback (encodePayload_eq_putSeq s) hp hempty (by omega) (by omega)
  obtain ⟨u, hrest⟩ := hscope.takeRest (cap := (hostAct (.load t.output) t).cfg.payloadCap) (by rw [hcfg]; omega)
  refine ⟨t, _, ht, decBuf_runsAs.next_of_ok (by simp [hdone]) (decodePayload_of_takeRest hrest), rfl, ?_⟩
  have hpayload := State.payload_setPayload (s := u) (p := s.payloadBytes) (by have := s.plen.isLt; omega)
  rwa [State.payload_eq_payloadBytes] at hpayload

end

/-- Settles O25, law by law. -/
theorem integerRoundTrip : Obligations.IntegerRoundTrip := by
  refine ⟨fun s e d n hrow hp hempty hob => ?_, fun s hp hempty hpl hob hib =>
    payload_encode_decode hp hempty hpl hob hib⟩
  obtain ⟨hn, he, hd⟩ := integerPair_runsAs hrow
  exact ⟨integer_encode_decode he hd hp hempty hob, integer_decode_encode hn he hd hp hempty hob⟩

/-! ### `DEC.AUX` as its parts in order (R130, 43_security_aux.md R210) -/

/-- The part of the state that a `Take` reads. -/
structure InputSide where
  epoch : Nat
  ib : Memory
  len : Word16
  cur : Word16

/-- That part of a state. -/
def State.inputSide (s : State) : InputSide where
  epoch := s.epoch
  ib := s.ib
  len := s.len
  cur := s.cur

/-- A `Take` yields the same in two states that agree on what it reads, and they agree again after it. -/
theorem State.take_of_inputSide {s s' t : State} {n v : Nat} (hinput : t.inputSide = s.inputSide)
    (h : s.take n = .ok (v, s')) :
    ∃ t', t.take n = .ok (v, t') ∧ t'.inputSide = s'.inputSide := by
  obtain ⟨hepoch, hib, hlen, hcur⟩ : t.epoch = s.epoch ∧ t.ib = s.ib ∧ t.len = s.len ∧ t.cur = s.cur := by
    simpa [State.inputSide] using hinput
  obtain ⟨hfit, rfl, rfl⟩ := State.take_eq_ok h
  have hwire : t.wire t.cur.toNat n = s.wire s.cur.toNat n := by
    rw [hcur, ← State.leNat_readBytes, ← State.leNat_readBytes, State.readBytes_congr (sp := .ib) hepoch hib]
  refine ⟨_, hwire ▸ State.take_of_le (by rwa [hlen, hcur]), ?_⟩
  simp only [State.inputSide, hepoch, hib, hlen, hcur]

section
variable {s s' t : State} {i : Instr} {c : Byte} {n v : Nat}

/-- An integer decode in place of a `Take`. -/
theorem RunsAs.decode_of_take (hi : RunsAs i c (decodeAcc n)) (hinput : t.inputSide = s.inputSide)
    (hp : t.phase ≠ .failed) (h : s.take n = .ok (v, s')) :
    ∃ u, exec i t = .next u ∧ u.acc = BitVec.ofNat 64 v ∧ u.inputSide = s'.inputSide ∧ u.phase ≠ .failed := by
  obtain ⟨t', htake, hinput'⟩ := State.take_of_inputSide hinput h
  exact ⟨_, hi.next_of_ok hp (decodeAcc_of_take htake), rfl, hinput', nofun⟩

/-- An integer decode, or none, in place of an optional `Take`. -/
theorem RunsAs.decode_of_takeIf {present : Bool} {P : Prop} (hP : present = true ↔ P) (hi : RunsAs i c (decodeAcc n))
    (hinput : t.inputSide = s.inputSide) (hp : t.phase ≠ .failed) (h : s.takeIf present n = .ok (v, s')) :
    ∃ u, (P → exec i t = .next u ∧ u.acc = BitVec.ofNat 64 v) ∧ (¬ P → u = t ∧ v = 0) ∧
      u.inputSide = s'.inputSide ∧ u.phase ≠ .failed := by
  cases present with
  | true =>
    obtain ⟨u, hu, hacc, hrest⟩ := hi.decode_of_take hinput hp h
    exact ⟨u, fun _ => ⟨hu, hacc⟩, fun hP' => absurd (hP.mp rfl) hP', hrest⟩
  | false =>
    cases h
    exact ⟨t, fun hP' => (nomatch hP.mpr hP'), fun _ => ⟨rfl, rfl⟩, hinput, hp⟩

end

/-- `DEC.SC` in place of the `Take` of a control byte (41_bitfield.md R151). -/
theorem decSc_of_take {s s' : State} {v : Nat} (hp : s.phase ≠ .failed) (h : s.take 1 = .ok (v, s')) :
    ∃ u, exec .decSc s = .next u ∧ u.scr = dropReservedSc (BitVec.ofNat 8 v) ∧ u.inputSide = s'.inputSide ∧
      u.phase ≠ .failed := by
  have hdecode : decodeSc s = .ok (s'.setScr (BitVec.ofNat 8 v)) := by
    rw [decodeSc, h]
    rfl
  exact ⟨_, decSc_runsAs.next_of_ok hp hdecode, rfl, rfl, nofun⟩

@[simp] theorem dropReservedSc_idem (b : Byte) : dropReservedSc (dropReservedSc b) = dropReservedSc b :=
  BitVec.eq_of_toNat_eq (by simp)

theorem hasAsrc_iff (scr : Byte) : hasAsrc scr = true ↔ scr.toNat / 32 % 2 = 1 := by
  rw [hasAsrc, BitVec.getLsbD, Nat.testBit_eq_decide_div_mod_eq, decide_eq_true_eq]

theorem hasKseq_iff (scr : Byte) : hasKseq scr = true ↔ scr.toNat / 8 % 4 = 1 := by
  rw [hasKseq, beq_iff_eq]
  rfl

/-- Settles O52: each `Take` of the pseudocode is one of the parts, run on a state that agrees on the input side. -/
theorem decAuxIsItsPartsInOrder : Obligations.DecAuxIsItsPartsInOrder := by
  intro s d hp hd hdone
  obtain ⟨u, hu, rfl⟩ := decAux_runsAs.ok_of_done hp hd hdone
  obtain ⟨⟨sc, s1⟩, hsc, hu⟩ := except_bind_ok hu
  obtain ⟨⟨f, s2⟩, hfcnt, hu⟩ := except_bind_ok hu
  obtain ⟨⟨x, s3⟩, hasrc, hu⟩ := except_bind_ok hu
  obtain ⟨⟨k, s4⟩, hkseq, hu⟩ := except_bind_ok hu
  cases hu
  obtain ⟨a, ha, hscr, ha1, hap⟩ := decSc_of_take hp hsc
  obtain ⟨b, hb, hbacc, hb2, hbp⟩ := decU32_runsAs.decode_of_take ha1 hap hfcnt
  obtain ⟨c, hc, hcabsent, hc3, hcp⟩ := decU64_runsAs.decode_of_takeIf (hasAsrc_iff _) hb2 hbp hasrc
  obtain ⟨e, he, heabsent, he4, -⟩ := decU8_runsAs.decode_of_takeIf (hasKseq_iff _) hc3 hcp hkseq
  rw [← hscr] at hc hcabsent he heabsent
  refine ⟨a, b, c, e, ha, hb, fun hP => ?_, fun hP => ?_, fun hP => ?_, fun hP => ?_, ?_, ?_, ?_⟩
  · obtain ⟨hexec, hacc⟩ := hc hP
    exact ⟨hexec, hacc.symm⟩
  · obtain ⟨hsame, rfl⟩ := hcabsent hP
    exact ⟨hsame, rfl⟩
  · obtain ⟨hexec, hacc⟩ := he hP
    exact ⟨hexec, by rw [hacc, BitVec.setWidth_ofNat_of_le (by decide)]; rfl⟩
  · obtain ⟨hsame, rfl⟩ := heabsent hP
    exact ⟨hsame, rfl⟩
  · rw [hscr]
    exact dropReservedSc_idem _
  · rw [hbacc, BitVec.setWidth_ofNat_of_le (by decide)]
    rfl
  · exact (congrArg InputSide.cur he4).symm

end Sys2Proof.Machine
end

section
/-! PROOFS. The bitfield utilities (41_bitfield.md R140 to R145), and their agreement with the views (R157).

A utility is its code and its pseudocode (`RunsAs`), and the pseudocode has one equation where it completes and one
where it refuses. That a construction's flags and payload make a sum is a fact on numbers (`add_shiftLeft_eq_or`): the
bits of the one are free in the other. The views are read off the field's number (`viewReads_fieldNumber`), which is
what the utilities leave in `FVAL`. -/

namespace Sys2Proof.Machine

/-! ### Bits and fields as arithmetic -/

theorem getField_eq_div_mod (word offset width : Nat) : getField word offset width = word / 2 ^ offset % 2 ^ width := by
  rw [getField, Nat.shiftRight_eq_div_pow]

theorem getLsbD_toNat {n : Nat} (w : BitVec n) (k : Nat) : (w.getLsbD k).toNat = w.toNat / 2 ^ k % 2 :=
  Nat.toNat_testBit w.toNat k

/-- A value put where a word has only clear bits: the word is `high`, the free field and `low`, and the value shares no
bit with either. -/
theorem add_shiftLeft_eq_or {word v offset width : Nat} (hv : v < 2 ^ width)
    (hfree : getField word offset width = 0) : word + v <<< offset = word ||| v <<< offset := by
  obtain ⟨high, hhigh⟩ : ∃ high, word / 2 ^ offset = high <<< width := by
    rw [getField_eq_div_mod] at hfree
    obtain ⟨high, hhigh⟩ := Nat.dvd_of_mod_eq_zero hfree
    exact ⟨high, by rw [hhigh, Nat.shiftLeft_eq, Nat.mul_comm]⟩
  have hlow : word % 2 ^ offset < 2 ^ offset := Nat.mod_lt _ (Nat.two_pow_pos offset)
  have hword : word = high <<< width <<< offset + word % 2 ^ offset := by
    rw [← hhigh, Nat.shiftLeft_eq, Nat.div_add_mod']
  calc word + v <<< offset
      _ = (high <<< width + v) <<< offset + word % 2 ^ offset := by
        rw [Nat.shiftLeft_eq (_ + _), Nat.add_mul, ← Nat.shiftLeft_eq, ← Nat.shiftLeft_eq, Nat.add_right_comm, ← hword]
      _ = (high <<< width ||| v) <<< offset ||| word % 2 ^ offset := by
        rw [Nat.shiftLeft_add_eq_or_of_lt hv, Nat.shiftLeft_add_eq_or_of_lt hlow]
      _ = (high <<< width <<< offset ||| word % 2 ^ offset) ||| v <<< offset := by
        rw [Nat.shiftLeft_or_distrib, Nat.or_right_comm]
      _ = word ||| v <<< offset := by rw [← Nat.shiftLeft_add_eq_or_of_lt hlow, ← hword]

/-! ### The pseudocode of the utilities -/

section
variable {w : Nat} {s : State}

theorem bitfieldGet_of_le (h : s.foff.toNat + s.fwid.toNat ≤ w) :
    bitfieldGet w s =
      .ok { s with fval := BitVec.ofNat 64 (s.acc.toNat % 2 ^ w / 2 ^ s.foff.toNat % 2 ^ s.fwid.toNat) } := by
  rw [bitfieldGet, if_neg (by omega), getField_eq_div_mod, State.accWord]

theorem bitfieldGet_of_lt (h : w < s.foff.toNat + s.fwid.toNat) : bitfieldGet w s = .error badField := by
  rw [bitfieldGet, if_pos h]

theorem bitfieldTest_of_lt (h : s.foff.toNat < w) :
    bitfieldTest w s = .ok { s with fval := BitVec.ofNat 64 (s.acc.toNat / 2 ^ s.foff.toNat % 2) } := by
  rw [bitfieldTest, if_neg (by omega), getLsbD_toNat]

theorem bitfieldTest_of_le (h : w ≤ s.foff.toNat) : bitfieldTest w s = .error badField := by
  rw [bitfieldTest, if_pos h]

theorem bitfieldMake_of_fits (hinside : s.foff.toNat + s.fwid.toNat ≤ w) (hv : s.fval.toNat < 2 ^ s.fwid.toNat)
    (hfree : getField (s.accWord w) s.foff.toNat s.fwid.toNat = 0) :
    bitfieldMake w s =
      .ok { s with acc := BitVec.ofNat 64 (s.acc.toNat % 2 ^ w + s.fval.toNat * 2 ^ s.foff.toNat) } := by
  rw [bitfieldMake, if_neg (by omega), if_neg (by omega), if_neg (not_not_intro hfree), ← add_shiftLeft_eq_or hv hfree,
    Nat.shiftLeft_eq, State.accWord]

theorem bitfieldMake_of_unfit (h : w < s.foff.toNat + s.fwid.toNat ∨ 2 ^ s.fwid.toNat ≤ s.fval.toNat ∨
    getField (s.accWord w) s.foff.toNat s.fwid.toNat ≠ 0) : bitfieldMake w s = .error badField := by
  unfold bitfieldMake
  split_ifs with hinside hv hfree
  · rfl
  · rfl
  · rfl
  · obtain h | h | h := h
    · exact absurd h hinside
    · exact absurd h hv
    · exact absurd h hfree

end

/-! ### The utilities -/

/-- R140, R141. -/
theorem bitfieldGet_runsAs {i : Instr} {c : Byte} {w : Nat}
    (h : (i, c, w) ∈ [(Instr.bfGet8, 0x30#8, 8), (.bfGet16, 0x31#8, 16)]) : RunsAs i c (bitfieldGet w) := by
  simp only [List.mem_cons, Prod.mk.injEq, List.not_mem_nil, or_false] at h
  obtain ⟨rfl, rfl, rfl⟩ | ⟨rfl, rfl, rfl⟩ := h <;> exact runsAs_opBody rfl nofun nofun

/-- R142, R143. -/
theorem bitfieldTest_runsAs {i : Instr} {c : Byte} {w : Nat}
    (h : (i, c, w) ∈ [(Instr.bfTst8, 0x32#8, 8), (.bfTst16, 0x33#8, 16)]) : RunsAs i c (bitfieldTest w) := by
  simp only [List.mem_cons, Prod.mk.injEq, List.not_mem_nil, or_false] at h
  obtain ⟨rfl, rfl, rfl⟩ | ⟨rfl, rfl, rfl⟩ := h <;> exact runsAs_opBody rfl nofun nofun

/-- R144, R145. -/
theorem bitfieldMake_runsAs {i : Instr} {c : Byte} {w : Nat}
    (h : (i, c, w) ∈ [(Instr.bfMake8, 0x34#8, 8), (.bfMake16, 0x35#8, 16)]) : RunsAs i c (bitfieldMake w) := by
  simp only [List.mem_cons, Prod.mk.injEq, List.not_mem_nil, or_false] at h
  obtain ⟨rfl, rfl, rfl⟩ | ⟨rfl, rfl, rfl⟩ := h <;> exact runsAs_opBody rfl nofun nofun

/-- Settles O26. -/
theorem bitfieldGetExtractsTheField : Obligations.BitfieldGetExtractsTheField := by
  intro s i c w hrow hp
  have hi := bitfieldGet_runsAs hrow
  exact ⟨hi.encoded, fun hinside => hi.next_of_ok hp (bitfieldGet_of_le hinside),
    fun hover => hi.next_of_error hp (bitfieldGet_of_lt hover)⟩

/-- Settles O27. -/
theorem bitfieldTestReadsOneBit : Obligations.BitfieldTestReadsOneBit := by
  intro s i c w hrow hp
  have hi := bitfieldTest_runsAs hrow
  exact ⟨hi.encoded, fun hinside => hi.next_of_ok hp (bitfieldTest_of_lt hinside),
    fun hover => hi.next_of_error hp (bitfieldTest_of_le hover)⟩

/-- Settles O28. -/
theorem bitfieldMakeBuildsTheWord : Obligations.BitfieldMakeBuildsTheWord := by
  intro s i c w hrow hp
  have hi := bitfieldMake_runsAs hrow
  have hfield := getField_eq_div_mod (s.accWord w) s.foff.toNat s.fwid.toNat
  refine ⟨hi.encoded, fun ⟨hinside, hv, hfree⟩ => ?_, fun hunfit => ?_⟩
  · exact hi.next_of_ok hp (bitfieldMake_of_fits hinside hv (hfield.trans hfree))
  · rw [State.accWord] at hfield
    rw [← hfield] at hunfit
    exact hi.next_of_error hp (bitfieldMake_of_unfit hunfit)

/-! ### The views (R153 to R155, R157) -/

theorem fieldNumber_eq_div_mod (f : NamedField) (word : Word16) :
    fieldNumber f word = word.toNat / 2 ^ fieldOffset f % 2 ^ fieldWidth f := by
  have hwidth : fieldOffset f + fieldWidth f - 1 - fieldOffset f + 1 = fieldWidth f := by cases f <;> rfl
  rw [fieldNumber, slice, hwidth]

/-- The rows of R102: a field lies inside its word, which has one of the two widths of the utilities. -/
theorem field_inside_word (f : NamedField) :
    fieldOffset f + fieldWidth f ≤ fieldWordBits f ∧ (fieldWordBits f = 8 ∨ fieldWordBits f = 16) := by
  cases f <;> decide

/-- A word of eight bits is its low byte. -/
theorem toNat_setWidth_eight {word : Word16} (h : word.toNat < 256) : (word.setWidth 8).toNat = word.toNat := by
  rw [BitVec.toNat_setWidth, Nat.mod_eq_of_lt h]

/-- Every view is the one of its field's number. -/
theorem viewReads_fieldNumber (f : NamedField) {word : Word16} (h : word.toNat < 2 ^ fieldWordBits f) :
    ViewReads f word (fieldNumber f word) := by
  have hnumber := fieldNumber_eq_div_mod f word
  cases f with
  | protocolVersion => rfl
  | multicast | security | sourceRoute | destIeee | srcIeee | endDeviceInitiator => exact (getLsbD_toNat word _).symm
  | frameType =>
    obtain ⟨hdata, hcommand, hreserved, hinterPan⟩ := frameType_iff word
    simp only [ViewReads, hnumber, hdata, hcommand, hreserved, hinterPan, fieldOffset, fieldWidth]
    omega
  | discoverRoute =>
    obtain ⟨hsuppress, henable, hreserved⟩ := discoverRoute_iff word
    simp only [ViewReads, hnumber, hsuppress, henable, hreserved, fieldOffset, fieldWidth]
    omega
  | mcMode =>
    obtain ⟨hnonMember, hmember, hreserved⟩ := mcMode_iff (word.setWidth 8)
    simp only [ViewReads, hnumber, hnonMember, hmember, hreserved, toNat_setWidth_eight h, fieldOffset, fieldWidth]
    have hbyte : word.toNat < 256 := h
    omega
  | keyIdentifier =>
    obtain ⟨hdata, hnetwork, hkeyTransport, hkeyLoad⟩ := keyIdentifier_iff (word.setWidth 8)
    simp only [ViewReads, hnumber, hdata, hnetwork, hkeyTransport, hkeyLoad, toNat_setWidth_eight h, fieldOffset,
      fieldWidth]
    omega
  | maxMemberRadius | nonMemberRadius | securityLevel =>
    simp only [ViewReads, maxMemberRadius, nonMemberRadius, securityLevel, toNat_setWidth_eight h]
    rfl
  | extendedNonce =>
    rw [ViewReads, extendedNonce, getLsbD_toNat, toNat_setWidth_eight h]
    rfl

/-- A number in `FVAL` below the widest field is exact. -/
theorem toNat_ofNat_fieldNumber (f : NamedField) (word : Word16) :
    (BitVec.ofNat 64 (fieldNumber f word)).toNat = fieldNumber f word := by
  have hle : fieldNumber f word ≤ word.toNat := by
    rw [fieldNumber_eq_div_mod]
    exact (Nat.mod_le _ _).trans (Nat.div_le_self _ _)
  have hlt := word.isLt
  rw [BitVec.toNat_ofNat]
  omega

/-- Settles O29: `FVAL` is the field's number (O26, O27), which its view reads. -/
theorem viewsAgreeWithUtilities : Obligations.ViewsAgreeWithUtilities := by
  intro s f word hp hword hacc hfoff
  obtain ⟨hinside, hbits⟩ := field_inside_word f
  have haccNat : s.acc.toNat = word.toNat := by
    have := word.isLt
    rw [hacc, BitVec.toNat_setWidth]
    omega
  have hview := viewReads_fieldNumber f hword
  have hexact := toNat_ofNat_fieldNumber f word
  rw [← hexact] at hview
  constructor
  · intro hfwid
    obtain ⟨-, hget, -⟩ := bitfieldGetExtractsTheField s (if fieldWordBits f = 8 then .bfGet8 else .bfGet16)
      (if fieldWordBits f = 8 then 0x30#8 else 0x31#8) (fieldWordBits f) (by obtain h | h := hbits <;> simp [h]) hp
    rw [hfoff, hfwid, haccNat, Nat.mod_eq_of_lt hword, ← fieldNumber_eq_div_mod] at hget
    exact ⟨_, hget hinside, rfl, hexact, hview⟩
  · intro hone
    obtain ⟨-, htest, -⟩ := bitfieldTestReadsOneBit s (if fieldWordBits f = 8 then .bfTst8 else .bfTst16)
      (if fieldWordBits f = 8 then 0x32#8 else 0x33#8) (fieldWordBits f) (by obtain h | h := hbits <;> simp [h]) hp
    have hnumber := fieldNumber_eq_div_mod f word
    rw [hone, pow_one] at hnumber
    rw [hfoff, haccNat, ← hnumber] at htest
    exact ⟨_, htest (by omega), rfl, hexact, hview⟩

end Sys2Proof.Machine
end

section
/-! PROOFS. The control words and the command identifier (41_bitfield.md R147 to R152, R158;
42_nwk_frame.md R174, R175).

Every decode here is one `Take` and the write of one register (`takeInto`), and every encode appends the bytes of one
register, so an instruction needs only its row (`RunsAs`) and what its write makes of the number taken. The round trips
are proved once for any such pair, in both directions. -/

namespace Sys2Proof.Machine

/-! ### One `Take`, one register -/

/-- The pseudocode that takes `n` bytes and writes the number to a register. -/
def takeInto (n : Nat) (write : Nat → State → State) (s : State) : Except Failure State := do
  let (v, t) ← s.take n
  .ok (write v t)

theorem takeInto_of_take {s t : State} {n v : Nat} {write : Nat → State → State} (h : s.take n = .ok (v, t)) :
    takeInto n write s = .ok (write v t) := by
  rw [takeInto, h]
  rfl

theorem takeInto_of_lt {s : State} {n : Nat} {write : Nat → State → State} (h : s.len.toNat - s.cur.toNat < n) :
    takeInto n write s = .error ⟨.insufficientBytes, s.cur.toNat⟩ := by
  rw [takeInto, State.take_of_lt h]
  rfl

/-- An operation with that pseudocode writes the register and moves the cursor, or fails at `CUR`. -/
theorem RunsAs.takes {i : Instr} {c : Byte} {n : Nat} {write : Nat → State → State} {s : State}
    (hi : RunsAs i c (takeInto n write)) (hp : s.phase ≠ .failed) :
    (s.cur.toNat + n ≤ s.len.toNat → exec i s = .next
      ((write (s.wire s.cur.toNat n) { s with cur := BitVec.ofNat 16 (s.cur.toNat + n) }).doneWith c)) ∧
    (s.len.toNat - s.cur.toNat < n → exec i s = .next (s.raised .insufficientBytes s.cur.toNat c)) :=
  ⟨fun hfit => hi.next_of_ok hp (takeInto_of_take (State.take_of_le (by omega))),
    fun hshort => hi.next_of_error hp (takeInto_of_lt hshort)⟩

theorem decFc_runsAs : RunsAs .decFc 0x40#8 (takeInto 2 fun v t => t.setFc (BitVec.ofNat 16 v)) :=
  runsAs_opBody rfl nofun nofun

theorem decMc_runsAs : RunsAs .decMc 0x41#8 (takeInto 1 fun v t => { t with mc := BitVec.ofNat 8 v }) :=
  runsAs_opBody rfl nofun nofun

theorem decSc_runsAs_takeInto : RunsAs .decSc 0x60#8 (takeInto 1 fun v t => t.setScr (BitVec.ofNat 8 v)) :=
  decSc_runsAs

theorem decCid_runsAs : RunsAs .decCid 0x44#8 (takeInto 1 fun v t => { t with cid := BitVec.ofNat 8 v }) :=
  runsAs_opBody rfl nofun nofun

theorem dropReservedFc_ofNat (v : Nat) : dropReservedFc (BitVec.ofNat 16 v) = BitVec.ofNat 16 (v % 0x4000) := by
  rw [dropReservedFc_eq, BitVec.toNat_ofNat, Nat.mod_mod_of_dvd _ (by decide)]

theorem dropReservedSc_ofNat (v : Nat) : dropReservedSc (BitVec.ofNat 8 v) = BitVec.ofNat 8 (v % 0x40) := by
  rw [dropReservedSc_eq, BitVec.toNat_ofNat, Nat.mod_mod_of_dvd _ (by decide)]

theorem State.ofNat_wire_one (s : State) (a : Nat) : BitVec.ofNat 8 (s.wire a 1) = s.readByte .ib a := by
  rw [State.wire_one, BitVec.ofNat_toNat, BitVec.setWidth_eq]

/-- Settles O31. -/
theorem decFcDropsReservedBits : Obligations.DecFcDropsReservedBits := by
  refine ⟨decFc_runsAs.encoded, fun s hp => ?_⟩
  have htakes := decFc_runsAs.takes hp
  simp only [State.setFc, dropReservedFc_ofNat] at htakes
  exact htakes

/-- Settles O32. -/
theorem oneByteDecodesKeepTheByte : Obligations.OneByteDecodesKeepTheByte := by
  refine ⟨decMc_runsAs.encoded, decSc_runsAs.encoded, decCid_runsAs.encoded, fun s hp => ?_⟩
  obtain ⟨hmc, hmcShort⟩ := decMc_runsAs.takes hp
  obtain ⟨hsc, hscShort⟩ := decSc_runsAs_takeInto.takes hp
  obtain ⟨hcid, hcidShort⟩ := decCid_runsAs.takes hp
  simp only [State.setScr, dropReservedSc_eq, State.ofNat_wire_one] at hmc hsc hcid
  exact ⟨fun hfit => ⟨hmc hfit, hsc hfit, hcid hfit⟩,
    fun hshort => ⟨hmcShort hshort, hscShort hshort, hcidShort hshort⟩⟩

/-! ### One register appended -/

theorem State.put_eq_putSeq (n v : Nat) (s : State) : s.put n v = s.putSeq (wireBytes n v) := by
  rw [State.put, leBytes_eq_wireBytes]

theorem encFc_runsAs : RunsAs .encFc 0x50#8 encodeFc := runsAs_opBody rfl nofun nofun

theorem encMc_runsAs : RunsAs .encMc 0x51#8 encodeMc := runsAs_opBody rfl nofun nofun

theorem encSc_runsAs : RunsAs .encSc 0x70#8 encodeSc := runsAs_opBody rfl nofun nofun

theorem encCid_runsAs : RunsAs .encCid 0x54#8 encodeCid := runsAs_opBody rfl nofun nofun

/-- A single field that does not fit ends past the limit. -/
theorem firstUnfit_singleton {limit p n q : Nat} (h : firstUnfit limit p [n] = some q) : limit < p + n ∧ q = p := by
  rw [firstUnfit] at h
  split at h
  next hlt =>
    injection h with h
    exact ⟨hlt, h.symm⟩
  next => cases h

/-- An operation whose pseudocode appends the bytes `b` encodes them as its one field. -/
theorem RunsAs.encodesField {i : Instr} {body : State → Except Failure State} {s : State} {b : List Byte}
    (hi : RunsAs i i.opCode body) (hp : s.phase ≠ .failed) (hbody : body s = s.putSeq b) : EncodesFields i [b] s := by
  obtain ⟨hfits, hover⟩ := hi.appends hp hbody
  rw [EncodesFields, List.flatten_singleton]
  refine ⟨hfits, fun p h => ?_⟩
  obtain ⟨hlt, rfl⟩ := firstUnfit_singleton h
  exact hover hlt

/-- Settles O33. -/
theorem controlWordEncodesAppendTheRegister : Obligations.ControlWordEncodesAppendTheRegister :=
  ⟨encFc_runsAs.encoded, encMc_runsAs.encoded, encSc_runsAs.encoded, encCid_runsAs.encoded, fun s hp =>
    ⟨encFc_runsAs.encodesField hp (s.put_eq_putSeq 2 _), encMc_runsAs.encodesField hp (s.put_eq_putSeq 1 _),
      encSc_runsAs.encodesField hp (s.put_eq_putSeq 1 _), encCid_runsAs.encodesField hp (s.put_eq_putSeq 1 _)⟩⟩

/-! ### Round trips (R158) -/

section
variable {s : State} {e d : Instr} {ce cd : Byte} {body : State → Except Failure State} {n : Nat}
  {write : Nat → State → State}

/-- Encode first: the number appended to an empty output is the number that the decode writes. -/
theorem RunsAs.encode_then_decode {v : Nat} (he : RunsAs e ce body) (hd : RunsAs d cd (takeInto n write))
    (hbody : body s = s.put n v) (hv : v < 256 ^ n) (hp : s.phase ≠ .failed) (hempty : s.olen = 0)
    (hob : n ≤ s.cfg.obCap) (hib : n ≤ s.cfg.ibCap) :
    ∃ t u, exec e s = .next t ∧ exec d (hostAct (.load t.output) t) = .next ((write v u).doneWith cd) := by
  have hlength := wireBytes_length n v
  obtain ⟨t, ht, hdone, -, hscope⟩ :=
    he.loopback (hbody.trans (s.put_eq_putSeq n v)) hp hempty (by omega) (by omega)
  obtain ⟨u, htake⟩ := hscope.take
  rw [hlength, ← leBytes_eq_wireBytes, leNat_leBytes, Nat.mod_eq_of_lt hv] at htake
  exact ⟨t, u, ht, hd.next_of_ok (by simp [hdone]) (takeInto_of_take htake)⟩

/-- One number encoded into an empty output: its bytes are all the output holds. -/
theorem RunsAs.encode_into_empty {v : Nat} (he : RunsAs e ce body) (hbody : body s = s.put n v)
    (hp : s.phase ≠ .failed) (hempty : s.olen = 0) (hob : n ≤ s.cfg.obCap) :
    ∃ u, exec e s = .next u ∧ u.phase = .done ∧ u.olen = BitVec.ofNat 16 n ∧
      ∀ a, a < n → u.readByte .ob a = BitVec.ofNat 8 (v / 256 ^ a) := by
  have hlength := wireBytes_length n v
  have hzero : s.olen.toNat = 0 := congrArg BitVec.toNat hempty
  obtain ⟨u, hu, hstate, hbytes, -⟩ := (he.appends hp (hbody.trans (s.put_eq_putSeq n v))).1 (by omega)
  rw [hzero, hlength, Nat.zero_add] at hstate
  refine ⟨u, hu, by rw [hstate], by rw [hstate], fun a ha => ?_⟩
  have hbyte := hbytes a (by omega)
  simpa [hzero, wireBytes] using hbyte

/-- The same for one byte, which always fits (00_scope.md R6). -/
theorem RunsAs.encode_byte_into_empty {b : Byte} (he : RunsAs e ce body) (hbody : body s = s.put 1 b.toNat)
    (hp : s.phase ≠ .failed) (hempty : s.olen = 0) :
    ∃ u, exec e s = .next u ∧ u.phase = .done ∧ u.olen = 1 ∧ u.readByte .ob 0 = b := by
  obtain ⟨u, hu, hdone, holen, hbytes⟩ := he.encode_into_empty hbody hp hempty (Nat.succ_pos _)
  exact ⟨u, hu, hdone, holen, by simpa using hbytes 0 Nat.one_pos⟩

end

theorem dropReservedSc_of_lt {b : Byte} (h : b.toNat < 0x40) : dropReservedSc b = b :=
  BitVec.eq_of_toNat_eq (by rw [dropReservedSc_toNat, Nat.mod_eq_of_lt h])

theorem State.wire_two (s : State) (a : Nat) :
    s.wire a 2 = (s.readByte .ib a).toNat + 256 * (s.readByte .ib (a + 1)).toNat := by
  simp [State.wire, Finset.sum_range_succ, Nat.mul_comm]

/-- The two bytes of a FrameControl word without its reserved bits: they were in the second byte. -/
theorem State.bytes_of_masked_wire (s : State) (a : Nat) :
    BitVec.ofNat 8 (s.wire a 2 % 0x4000) = s.readByte .ib a ∧
    BitVec.ofNat 8 (s.wire a 2 % 0x4000 / 256) = BitVec.ofNat 8 ((s.readByte .ib (a + 1)).toNat % 0x40) := by
  have hlow := (s.readByte .ib a).isLt
  rw [State.wire_two]
  constructor
  · apply BitVec.eq_of_toNat_eq
    rw [BitVec.toNat_ofNat]
    omega
  · congr 1
    omega

section
variable {s : State}

theorem encFc_then_decFc (hp : s.phase ≠ .failed) (hempty : s.olen = 0) (hfc : s.fc.toNat ≤ 0x3FFF)
    (hob : 2 ≤ s.cfg.obCap) (hib : 2 ≤ s.cfg.ibCap) :
    ∃ t u, exec .encFc s = .next t ∧ exec .decFc (hostAct (.load t.output) t) = .next u ∧ u.phase = .done ∧
      u.fc = s.fc := by
  obtain ⟨t, u, ht, hu⟩ := encFc_runsAs.encode_then_decode decFc_runsAs rfl s.fc.isLt hp hempty hob hib
  have hkept : dropReservedFc (BitVec.ofNat 16 s.fc.toNat) = s.fc := by
    rw [BitVec.ofNat_toNat, BitVec.setWidth_eq, dropReservedFc_of_lt (Nat.lt_succ_of_le hfc)]
  exact ⟨t, _, ht, hu, rfl, hkept⟩

theorem encMc_then_decMc (hp : s.phase ≠ .failed) (hempty : s.olen = 0) :
    ∃ t u, exec .encMc s = .next t ∧ exec .decMc (hostAct (.load t.output) t) = .next u ∧ u.phase = .done ∧
      u.mc = s.mc := by
  obtain ⟨t, u, ht, hu⟩ :=
    encMc_runsAs.encode_then_decode decMc_runsAs rfl s.mc.isLt hp hempty (Nat.succ_pos _) (Nat.succ_pos _)
  have hkept : BitVec.ofNat 8 s.mc.toNat = s.mc := by rw [BitVec.ofNat_toNat, BitVec.setWidth_eq]
  exact ⟨t, _, ht, hu, rfl, hkept⟩

theorem encSc_then_decSc (hp : s.phase ≠ .failed) (hempty : s.olen = 0) (hscr : s.scr.toNat ≤ 0x3F) :
    ∃ t u, exec .encSc s = .next t ∧ exec .decSc (hostAct (.load t.output) t) = .next u ∧ u.phase = .done ∧
      u.scr = s.scr := by
  obtain ⟨t, u, ht, hu⟩ :=
    encSc_runsAs.encode_then_decode decSc_runsAs_takeInto rfl s.scr.isLt hp hempty (Nat.succ_pos _) (Nat.succ_pos _)
  have hkept : dropReservedSc (BitVec.ofNat 8 s.scr.toNat) = s.scr := by
    rw [BitVec.ofNat_toNat, BitVec.setWidth_eq, dropReservedSc_of_lt (Nat.lt_succ_of_le hscr)]
  exact ⟨t, _, ht, hu, rfl, hkept⟩

theorem decFc_then_encFc (hp : s.phase ≠ .failed) (hempty : s.olen = 0) (hfit : s.cur.toNat + 2 ≤ s.len.toNat)
    (hob : 2 ≤ s.cfg.obCap) :
    ∃ t u, exec .decFc s = .next t ∧ exec .encFc t = .next u ∧ u.phase = .done ∧ u.olen = 2 ∧
      u.readByte .ob 0 = s.readByte .ib s.cur.toNat ∧
      u.readByte .ob 1 = BitVec.ofNat 8 ((s.readByte .ib (s.cur.toNat + 1)).toNat % 0x40) := by
  have hword : (BitVec.ofNat 16 (s.wire s.cur.toNat 2 % 0x4000)).toNat = s.wire s.cur.toNat 2 % 0x4000 := by
    rw [BitVec.toNat_ofNat]
    omega
  obtain ⟨t, hdecode, hfc, hcfg, hnone, hdone⟩ :
      ∃ t, exec .decFc s = .next t ∧ t.fc.toNat = s.wire s.cur.toNat 2 % 0x4000 ∧ t.cfg = s.cfg ∧ t.olen = 0 ∧
        t.phase = .done :=
    ⟨_, (decFcDropsReservedBits.2 s hp).1 hfit, hword, rfl, hempty, rfl⟩
  obtain ⟨u, hu, hudone, holen, hbytes⟩ :=
    encFc_runsAs.encode_into_empty (s := t) rfl (by simp [hdone]) hnone (hcfg ▸ hob)
  obtain ⟨hlow, hhigh⟩ := s.bytes_of_masked_wire s.cur.toNat
  rw [hfc] at hbytes
  refine ⟨t, u, hdecode, hu, hudone, holen, ?_, ?_⟩
  · rw [hbytes 0 (by decide), pow_zero, Nat.div_one, hlow]
  · rw [hbytes 1 (by decide), pow_one, hhigh]

theorem decMc_then_encMc (hp : s.phase ≠ .failed) (hempty : s.olen = 0) (hfit : s.cur.toNat + 1 ≤ s.len.toNat) :
    ∃ t u, exec .decMc s = .next t ∧ exec .encMc t = .next u ∧ u.phase = .done ∧ u.olen = 1 ∧
      u.readByte .ob 0 = s.readByte .ib s.cur.toNat := by
  obtain ⟨-, -, -, hdecodes⟩ := oneByteDecodesKeepTheByte
  obtain ⟨hdecode, -, -⟩ := (hdecodes s hp).1 hfit
  obtain ⟨t, hdecode, hmc, hnone, hdone⟩ :
      ∃ t, exec .decMc s = .next t ∧ t.mc = s.readByte .ib s.cur.toNat ∧ t.olen = 0 ∧ t.phase = .done :=
    ⟨_, hdecode, rfl, hempty, rfl⟩
  obtain ⟨u, hu⟩ := encMc_runsAs.encode_byte_into_empty (s := t) rfl (by simp [hdone]) hnone
  exact ⟨t, u, hdecode, hmc ▸ hu⟩

theorem decSc_then_encSc (hp : s.phase ≠ .failed) (hempty : s.olen = 0) (hfit : s.cur.toNat + 1 ≤ s.len.toNat) :
    ∃ t u, exec .decSc s = .next t ∧ exec .encSc t = .next u ∧ u.phase = .done ∧ u.olen = 1 ∧
      u.readByte .ob 0 = BitVec.ofNat 8 ((s.readByte .ib s.cur.toNat).toNat % 0x40) := by
  obtain ⟨-, -, -, hdecodes⟩ := oneByteDecodesKeepTheByte
  obtain ⟨-, hdecode, -⟩ := (hdecodes s hp).1 hfit
  obtain ⟨t, hdecode, hscr, hnone, hdone⟩ :
      ∃ t, exec .decSc s = .next t ∧ t.scr = BitVec.ofNat 8 ((s.readByte .ib s.cur.toNat).toNat % 0x40) ∧
        t.olen = 0 ∧ t.phase = .done :=
    ⟨_, hdecode, rfl, hempty, rfl⟩
  obtain ⟨u, hu⟩ := encSc_runsAs.encode_byte_into_empty (s := t) rfl (by simp [hdone]) hnone
  exact ⟨t, u, hdecode, hscr ▸ hu⟩

end

/-- Settles O34, law by law. -/
theorem controlWordRoundTrip : Obligations.ControlWordRoundTrip := fun _ hp hempty =>
  ⟨encFc_then_decFc hp hempty, encMc_then_decMc hp hempty, encSc_then_decSc hp hempty, decFc_then_encFc hp hempty,
    fun hfit => ⟨decMc_then_encMc hp hempty hfit, decSc_then_encSc hp hempty hfit⟩⟩

end Sys2Proof.Machine
end

section
/-! PROOFS. The encodes of the NWK frame (42_nwk_frame.md R171, R173, R182 to R186), and the classification (R187).

The pseudocode of every encode is the append of a list of fields one after another (`State.putFields`), and what that
does is said once: fields that all fit are appended as one sequence, and the first that does not fit is where it fails
(60_exceptions.md R237). -/

namespace Sys2Proof.Machine

/-! ### A sequence of fields appended in order -/

/-- The pseudocode that appends the given fields one after another. -/
def State.putFields : List (List Byte) → State → Except Failure State
  | [], s => .ok s
  | b :: bs, s => s.putSeq b >>= State.putFields bs

section
variable {s t : State}

@[simp] theorem State.putFields_nil (s : State) : s.putFields [] = .ok s := rfl

@[simp] theorem State.putFields_singleton (b : List Byte) : State.putFields [b] = State.putSeq b := by
  funext s
  rw [State.putFields]
  cases s.putSeq b <;> rfl

theorem State.putFields_append (bs cs : List (List Byte)) (s : State) :
    s.putFields (bs ++ cs) = s.putFields bs >>= State.putFields cs := by
  induction bs generalizing s with
  | nil => rfl
  | cons b bs ih =>
    rw [List.cons_append, State.putFields, State.putFields]
    cases s.putSeq b with
    | error f => rfl
    | ok t => exact ih t

theorem State.putFields_appendsTo {bs : List (List Byte)} (h : s.putFields bs = .ok t) : s.AppendsTo t := by
  induction bs generalizing s with
  | nil => cases h; exact .refl _
  | cons b bs ih =>
    obtain ⟨u, hb, h⟩ := except_bind_ok h
    exact (State.putSeq_appendsTo hb).trans (ih h)

/-- Fields that all fit are appended as one byte sequence. -/
theorem State.putFields_of_le {bs : List (List Byte)} (h : s.olen.toNat + bs.flatten.length ≤ s.cfg.obCap) :
    s.putFields bs = .ok (s.appended bs.flatten) := by
  induction bs generalizing s with
  | nil => simp [State.appended, Memory.setSeq]
  | cons b bs ih =>
    rw [List.flatten_cons, List.length_append] at h
    have hroom : s.HasRoom b := fun _ => by omega
    have holen := State.appended_olen hroom
    have hrest : (s.appended b).olen.toNat + bs.flatten.length ≤ (s.appended b).cfg.obCap := by
      rw [holen, Nat.add_assoc]
      exact h
    rw [State.putFields, State.putSeq_eq_appended (by omega)]
    exact (ih hrest).trans (by rw [State.appended_appended hroom, List.flatten_cons])

/-- The first field that does not fit is the one at which the append fails. -/
theorem State.putFields_of_firstUnfit {bs : List (List Byte)} {p : Nat}
    (h : firstUnfit s.cfg.obCap s.olen.toNat (bs.map List.length) = some p) :
    s.putFields bs = .error ⟨.capacityExceeded, p⟩ := by
  induction bs generalizing s with
  | nil => cases h
  | cons b bs ih =>
    rw [List.map_cons, firstUnfit] at h
    rw [State.putFields]
    split at h
    next hover =>
      injection h with h
      rw [State.putSeq_of_lt hover, h]
      rfl
    next hfit =>
      have holen := State.appended_olen (s := s) (b := b) fun _ => by omega
      rw [State.putSeq_eq_appended (by omega)]
      rw [← holen] at h
      exact ih h

/-- An operation whose pseudocode appends the fields one after another encodes them. -/
theorem RunsAs.encodesFields {i : Instr} {body : State → Except Failure State} {fields : List (List Byte)}
    (hi : RunsAs i i.opCode body) (hp : s.phase ≠ .failed) (hbody : body s = s.putFields fields) :
    EncodesFields i fields s :=
  ⟨fun hfit => ⟨_, hi.next_of_ok hp (hbody.trans (State.putFields_of_le hfit)), appended_doneWith _ _ s⟩,
    fun _ hover => hi.next_of_error hp (hbody.trans (State.putFields_of_firstUnfit hover))⟩

/-! ### The pseudocode of the encodes as sequences of fields -/

/-- A flag of FrameControl as the number that the statements speak of. -/
theorem getLsbD_iff_bit (w : Word16) (k : Nat) : w.getLsbD k = true ↔ bit w k = 1 := by
  rw [bit, BitVec.getLsbD, Nat.testBit_eq_decide_div_mod_eq, decide_eq_true_eq]

theorem hasDieee_iff (fc : Word16) : hasDieee fc = true ↔ bit fc 11 = 1 := getLsbD_iff_bit fc 11

theorem hasSieee_iff (fc : Word16) : hasSieee fc = true ↔ bit fc 12 = 1 := getLsbD_iff_bit fc 12

theorem hasMc_iff (fc : Word16) : hasMc fc = true ↔ bit fc 8 = 1 := getLsbD_iff_bit fc 8

theorem hasSrs_iff (fc : Word16) : hasSrs fc = true ↔ bit fc 10 = 1 := getLsbD_iff_bit fc 10

theorem State.relay_eq_relayBytes (s : State) : s.relay = s.relayBytes := by
  rw [State.relay, State.readBytes_eq_ofFn, State.relayBytes]
  simp only [Nat.zero_add]

/-- Appending to the output changes none of the registers that are encoded. -/
theorem State.AppendsTo.subframeFields (h : s.AppendsTo t) : t.subframeFields = s.subframeFields := by
  obtain ⟨b, -, rfl⟩ := h
  rfl

theorem State.AppendsTo.bodyFields (h : s.AppendsTo t) : t.bodyFields = s.bodyFields := by
  obtain ⟨b, -, rfl⟩ := h
  rfl

theorem State.AppendsTo.fc (h : s.AppendsTo t) : t.fc = s.fc := by
  obtain ⟨b, -, rfl⟩ := h
  rfl

theorem State.putFields_wireBytes_cons (n v : Nat) (bs : List (List Byte)) :
    State.putFields (wireBytes n v :: bs) = fun s => s.put n v >>= State.putFields bs := by
  funext s
  rw [State.putFields, State.put_eq_putSeq]

theorem State.putIf_eq_putFields {present : Bool} {P : Prop} [Decidable P] (hP : present = true ↔ P) (n v : Nat)
    (s : State) : s.putIf present n v = s.putFields (if P then [wireBytes n v] else []) := by
  rw [State.putIf]
  by_cases h : P
  · rw [if_pos (hP.mpr h), if_pos h, State.putFields_singleton, State.put_eq_putSeq]
  · rw [if_neg (mt hP.mp h), if_neg h, State.putFields_nil]

theorem State.putSubframe_eq_putFields (s : State) : s.putSubframe = s.putFields s.subframeFields := by
  rw [State.subframeFields, State.putFields_wireBytes_cons, State.putFields_wireBytes_cons, State.putFields_singleton,
    ← State.relay_eq_relayBytes]
  rfl

/-- The integer fields of a header: those before the source-route subframe. -/
def State.integerFields (s : State) : List (List Byte) :=
  [wireBytes 2 s.fc.toNat, wireBytes 2 s.dst.toNat, wireBytes 2 s.src.toNat, wireBytes 1 s.radius.toNat,
    wireBytes 1 s.seq.toNat] ++
  (if bit s.fc 11 = 1 then [wireBytes 8 s.dieee.toNat] else []) ++
  (if bit s.fc 12 = 1 then [wireBytes 8 s.sieee.toNat] else []) ++
  (if bit s.fc 8 = 1 then [wireBytes 1 s.mc.toNat] else [])

theorem State.headerFields_eq (s : State) :
    s.headerFields = s.integerFields ++ if bit s.fc 10 = 1 then s.subframeFields else [] := rfl

theorem encodeHeader_eq_integers_then_subframe (s : State) :
    encodeHeader s =
      (s.putFields s.integerFields >>= fun t => if hasSrs s.fc then t.putSubframe else .ok t) := by
  simp only [State.integerFields, State.putFields_append, State.putFields_wireBytes_cons,
    State.putFields_nil, ← State.putIf_eq_putFields (hasDieee_iff s.fc),
    ← State.putIf_eq_putFields (hasSieee_iff s.fc), ← State.putIf_eq_putFields (hasMc_iff s.fc), bind_assoc]
  rfl

theorem encodeHeader_eq_putFields (s : State) : encodeHeader s = s.putFields s.headerFields := by
  rw [encodeHeader_eq_integers_then_subframe, State.headerFields_eq, State.putFields_append]
  cases hints : s.putFields s.integerFields with
  | error f => rfl
  | ok t =>
    have ht := State.putFields_appendsTo hints
    change (if hasSrs s.fc then t.putSubframe else .ok t) = t.putFields _
    by_cases hroute : bit s.fc 10 = 1
    · rw [if_pos ((hasSrs_iff s.fc).mpr hroute), if_pos hroute, State.putSubframe_eq_putFields, ht.subframeFields]
    · rw [if_neg (mt (hasSrs_iff s.fc).mp hroute), if_neg hroute, State.putFields_nil]

theorem State.bodyFields_of_data (h : s.fc.toNat % 4 = 0) : s.bodyFields = [s.payloadBytes] := if_pos h

theorem State.bodyFields_of_command (h : s.fc.toNat % 4 = 1) :
    s.bodyFields = [wireBytes 1 s.cid.toNat, s.payloadBytes] :=
  (if_neg (by omega)).trans (if_pos h)

theorem State.bodyFields_of_headerOnly (h : 2 ≤ s.fc.toNat % 4) : s.bodyFields = [] :=
  (if_neg (by omega)).trans (if_neg (by omega))

theorem encodeArm_eq_putFields (s : State) : encodeArm s.fc s = s.putFields s.bodyFields := by
  obtain ⟨hdata, hcommand, hreserved, hinterPan⟩ := frameType_iff s.fc
  obtain h | h | h | h := mod_four_cases s.fc.toNat
  · rw [encodeArm, hdata.mpr h, State.bodyFields_of_data h, State.putFields_singleton,
      ← State.payload_eq_payloadBytes]
    rfl
  · rw [encodeArm, hcommand.mpr h, State.bodyFields_of_command h, State.putFields_wireBytes_cons,
      State.putFields_singleton, ← State.payload_eq_payloadBytes]
    rfl
  · rw [encodeArm, hreserved.mpr h, State.bodyFields_of_headerOnly (by omega)]
    rfl
  · rw [encodeArm, hinterPan.mpr h, State.bodyFields_of_headerOnly (by omega)]
    rfl

theorem encodeFrame_eq_putFields (s : State) : encodeFrame s = s.putFields s.frameFields := by
  rw [encodeFrame, encodeHeader_eq_putFields, State.frameFields, State.putFields_append]
  cases hheader : s.putFields s.headerFields with
  | error f => rfl
  | ok t =>
    have ht := State.putFields_appendsTo hheader
    change encodeArm s.fc t = t.putFields s.bodyFields
    rw [← ht.fc, encodeArm_eq_putFields, ht.bodyFields]

end

/-! ### The encodes -/

theorem encSrs_runsAs : RunsAs .encSrs 0x52#8 State.putSubframe := runsAs_opBody rfl nofun nofun

theorem encHdr_runsAs : RunsAs .encHdr 0x53#8 encodeHeader := runsAs_opBody rfl nofun nofun

theorem encFrm_runsAs : RunsAs .encFrm 0x55#8 encodeFrame := runsAs_opBody rfl nofun nofun

/-- Settles O36. -/
theorem encSrsAppendsCountIndexAndList : Obligations.EncSrsAppendsCountIndexAndList :=
  ⟨encSrs_runsAs.encoded, fun s hp => encSrs_runsAs.encodesFields hp s.putSubframe_eq_putFields⟩

/-- Settles O40. -/
theorem encHdrAppendsThePresentFields : Obligations.EncHdrAppendsThePresentFields :=
  ⟨encHdr_runsAs.encoded, fun s hp => encHdr_runsAs.encodesFields hp (encodeHeader_eq_putFields s)⟩

/-- Settles O46. -/
theorem encFrmAppendsHeaderAndBody : Obligations.EncFrmAppendsHeaderAndBody :=
  ⟨encFrm_runsAs.encoded, fun s hp => encFrm_runsAs.encodesFields hp (encodeFrame_eq_putFields s)⟩

/-! ### Classification (R187) -/

theorem txm_runsAs : RunsAs .txm 0x46#8 classify := runsAs_opBody rfl nofun nofun

theorem getLsbD_eq_bit_beq (w : Word16) (k : Nat) : w.getLsbD k = (bit w k == 1) :=
  Bool.eq_iff_iff.mpr ((getLsbD_iff_bit w k).trans beq_iff_eq.symm)

/-- A route with no meaning of its own, and Enable with multicast, are Unknown in every table. -/
theorem txmTable_eq_unknown (c : Config) {fc : Word16} (d : Bool)
    (h : 2 ≤ fc.toNat / 64 % 4 ∨ (fc.toNat / 64 % 4 = 1 ∧ bit fc 8 = 1)) :
    txmTable c (discoverRoute fc) (bit fc 8 == 1) d = .unknown := by
  obtain ⟨-, henable, hreserved⟩ := discoverRoute_iff fc
  obtain h | ⟨hroute, hmulticast⟩ := h
  · rw [hreserved.mpr h]
    rfl
  · rw [henable.mpr hroute, hmulticast]
    rfl

/-- Settles O49. -/
theorem txmClassifies : Obligations.TxmClassifies := by
  refine ⟨txm_runsAs.encoded, fun s hp => ?_⟩
  have hnext := txm_runsAs.next_of_ok hp (show classify s = .ok _ from rfl)
  rw [multicast, destIeee, getLsbD_eq_bit_beq, getLsbD_eq_bit_beq] at hnext
  refine ⟨hnext, fun h => ?_⟩
  rwa [txmTable_eq_unknown s.cfg _ h] at hnext

end Sys2Proof.Machine
end

section
/-! PROOFS. The decodes of the source-route subframe and of the header (42_nwk_frame.md R170, R172, R177).

A decode takes integer fields in order, each at its index of the scope, and stops at the first that is not in it
(60_exceptions.md R237). `State.Reads` says both at once and composes along the pseudocode, so that one derivation
(`State.reads_takeHeader`) gives the header's values and where it fails. -/

namespace Sys2Proof.Machine

/-! ### Flags of the FrameControl word -/

theorem bit_dropReservedFc (w : Word16) {k : Nat} (hk : k < 14) : bit (dropReservedFc w) k = bit w k := by
  rw [bit, bit, dropReservedFc_toNat, ← Nat.toNat_testBit, ← Nat.toNat_testBit, show 0x4000 = 2 ^ 14 from rfl,
    Nat.testBit_mod_two_pow, decide_eq_true hk, Bool.true_and]

theorem bit_cases (w : Word16) (k : Nat) : bit w k = 0 ∨ bit w k = 1 := Nat.mod_two_eq_zero_or_one _

/-- A field of `n` bytes that a flag gates takes `n` times the flag. -/
theorem flagged_sum (w : Word16) (k n : Nat) : (if bit w k = 1 then [n] else []).sum = n * bit w k := by
  obtain h | h := bit_cases w k <;> simp [h]

/-! ### Integer fields taken in order -/

theorem firstUnfit_append (limit p : Nat) (ws ws' : List Nat) :
    firstUnfit limit p (ws ++ ws') = (firstUnfit limit p ws).or (firstUnfit limit (p + ws.sum) ws') := by
  induction ws generalizing p with
  | nil => rfl
  | cons n ws ih =>
    rw [List.cons_append, firstUnfit, firstUnfit, List.sum_cons, ← Nat.add_assoc]
    split
    · rfl
    · exact ih (p + n)

theorem firstUnfit_eq_none_iff {limit p : Nat} {ws : List Nat} (h : ws ≠ []) :
    firstUnfit limit p ws = none ↔ p + ws.sum ≤ limit := by
  induction ws generalizing p with
  | nil => exact absurd rfl h
  | cons n ws ih =>
    rw [firstUnfit, List.sum_cons, ← Nat.add_assoc]
    split
    next hover => simp only [reduceCtorEq, false_iff]; omega
    next hfit =>
      cases ws with
      | nil => simpa [firstUnfit] using hfit
      | cons m ws => exact ih (List.cons_ne_nil m ws)

/-- The state with the cursor at the index `p`. -/
def State.cursorAt (s : State) (p : Nat) : State := { s with cur := BitVec.ofNat 16 p }

theorem State.cursorAt_cur_toNat (s : State) {p : Nat} (h : p < 65536) : (s.cursorAt p).cur.toNat = p := by
  rw [State.cursorAt, BitVec.toNat_ofNat]
  omega

theorem State.cursorAt_cur (s : State) : s.cursorAt s.cur.toNat = s := by
  rw [State.cursorAt, BitVec.ofNat_toNat, BitVec.setWidth_eq]

/-- `x`, which stands at the index `p` of the scope of `s`, takes integer fields of the widths `ws`: where they are all
in the scope it is `y`, and otherwise it fails with `InsufficientBytes` at the start of the first that is not. -/
structure State.Reads {α : Type} (s : State) (p : Nat) (ws : List Nat) (x y : Except Failure α) : Prop where
  fits : p < 65536 → firstUnfit s.len.toNat p ws = none → x = y
  short : p < 65536 → ∀ q, firstUnfit s.len.toNat p ws = some q → x = .error ⟨.insufficientBytes, q⟩

section
variable {α β : Type} {s : State} {p q n : Nat} {ws ws' : List Nat} {x y z : Except Failure α}

theorem State.Reads.refl (s : State) (p : Nat) (x : Except Failure α) : s.Reads p [] x x :=
  ⟨fun _ _ => rfl, fun _ _ h => nomatch h⟩

theorem State.Reads.trans (hxy : s.Reads p ws x y) (hq : p + ws.sum = q) (hyz : s.Reads q ws' y z) :
    s.Reads p (ws ++ ws') x z := by
  subst hq
  have hbound : p < 65536 → firstUnfit s.len.toNat p ws = none → p + ws.sum < 65536 := by
    intro hp hfit
    cases ws with
    | nil => exact hp
    | cons n ws => exact ((firstUnfit_eq_none_iff (List.cons_ne_nil n ws)).mp hfit).trans_lt s.len.isLt
  constructor
  · intro hp h
    rw [firstUnfit_append, Option.or_eq_none_iff] at h
    obtain ⟨hfit, hfit'⟩ := h
    exact (hxy.fits hp hfit).trans (hyz.fits (hbound hp hfit) hfit')
  · intro hp r h
    rw [firstUnfit_append, Option.or_eq_some_iff] at h
    obtain h | ⟨hfit, h⟩ := h
    · exact hxy.short hp r h
    · exact (hxy.fits hp hfit).trans (hyz.short (hbound hp hfit) r h)

theorem State.Reads.bind (h : s.Reads p ws x y) (g : α → Except Failure β) : s.Reads p ws (x >>= g) (y >>= g) :=
  ⟨fun hp hfit => congrArg (· >>= g) (h.fits hp hfit), fun hp q hq => congrArg (· >>= g) (h.short hp q hq)⟩

/-- Fields taken, and then what follows them. -/
theorem State.Reads.andThen {a : α} {g : α → Except Failure β} {r : Except Failure β} (h : s.Reads p ws x (.ok a))
    (hq : p + ws.sum = q) (hg : s.Reads q ws' (g a) r) : s.Reads p (ws ++ ws') (x >>= g) r :=
  (h.bind g).trans hq hg

theorem State.reads_take (s : State) (p : Nat) (hn : 0 < n) :
    s.Reads p [n] ((s.cursorAt p).take n) (.ok (s.wire p n, s.cursorAt (p + n))) := by
  constructor
  · intro hp hfit
    have hcur := s.cursorAt_cur_toNat hp
    rw [firstUnfit_eq_none_iff (List.cons_ne_nil n []), List.sum_singleton] at hfit
    have htake := State.take_of_le (s := s.cursorAt p) (n := n) (by rw [hcur]; exact Nat.le_sub_of_add_le' hfit)
    rw [hcur] at htake
    exact htake
  · intro hp q hq
    have hcur := s.cursorAt_cur_toNat hp
    obtain ⟨hover, rfl⟩ := firstUnfit_singleton hq
    have htake := State.take_of_lt (s := s.cursorAt q) (n := n) (by
      rw [hcur]
      change s.len.toNat - q < n
      omega)
    rwa [hcur] at htake

/-- A field that a flag of the FrameControl word gates: absent, it is 0 and takes no byte. -/
theorem State.reads_takeIf (s : State) (p : Nat) {present : Bool} {fc : Word16} {k : Nat}
    (hflag : present = true ↔ bit fc k = 1) (hn : 0 < n) :
    s.Reads p (if bit fc k = 1 then [n] else []) ((s.cursorAt p).takeIf present n)
      (.ok (if bit fc k = 1 then s.wire p n else 0, s.cursorAt (p + n * bit fc k))) := by
  obtain h | h := bit_cases fc k
  · have habsent : present = false := by simpa [h] using hflag
    rw [habsent, h]
    exact .refl s p _
  · rw [State.takeIf, if_pos (hflag.mpr h), h, Nat.mul_one]
    exact s.reads_take p hn

end

/-! ### The rest of the scope -/

/-- Every byte of the scope from the index `p`. -/
def State.restFrom (s : State) (p : Nat) : List Byte := s.readBytes .ib p (s.len.toNat - p)

@[simp] theorem State.restFrom_length (s : State) (p : Nat) : (s.restFrom p).length = s.len.toNat - p :=
  s.readBytes_length .ib p _

theorem State.scope_eq_restFrom (s : State) (p : Nat) : s.scope p (s.len.toNat - p) = s.restFrom p :=
  (s.readBytes_eq_ofFn .ib p _).symm

theorem State.takeRest_cursorAt_of_le {s : State} {p cap : Nat} (hp : p < 65536) (h : s.len.toNat - p ≤ cap) :
    (s.cursorAt p).takeRest cap = .ok (s.restFrom p, { s with cur := s.len }) := by
  have hcur := s.cursorAt_cur_toNat hp
  have hrest := State.takeRest_of_le (s := s.cursorAt p) (cap := cap) (by rwa [hcur])
  rw [hcur] at hrest
  have hbytes : (s.cursorAt p).readBytes .ib p (s.len.toNat - p) = s.restFrom p :=
    State.readBytes_congr (s := s) (t := s.cursorAt p) (sp := .ib) rfl rfl p _
  exact hrest.trans (congrArg (fun b => Except.ok (b, _)) hbytes)

theorem State.takeRest_cursorAt_of_lt {s : State} {p cap : Nat} (hp : p < 65536) (h : cap < s.len.toNat - p) :
    (s.cursorAt p).takeRest cap = .error ⟨.capacityExceeded, p⟩ := by
  have hcur := s.cursorAt_cur_toNat hp
  have hrest := State.takeRest_of_lt (s := s.cursorAt p) (cap := cap) (by rwa [hcur])
  rwa [hcur] at hrest

/-! ### Source-route subframe (R170) -/

/-- The subframe at the index `p` of the scope. -/
def State.subframeAt (s : State) (p : Nat) : Subframe where
  count := BitVec.ofNat 8 (s.wire p 1)
  index := BitVec.ofNat 8 (s.wire (p + 1) 1)
  relay := s.restFrom (p + 2)

/-- What is left of the subframe decode at the index `p` when count and index have been taken: the relay list. -/
def State.takeRelay (s : State) (p : Nat) : Except Failure (Subframe × State) := do
  let (r, t) ← (s.cursorAt (p + 2)).takeRest s.cfg.relayCap
  .ok ({ s.subframeAt p with relay := r }, t)

section
variable {s : State} {p : Nat}

theorem State.takeRelay_of_le (hp : p + 2 < 65536) (h : s.len.toNat - (p + 2) ≤ s.cfg.relayCap) :
    s.takeRelay p = .ok (s.subframeAt p, { s with cur := s.len }) := by
  rw [State.takeRelay, State.takeRest_cursorAt_of_le hp h]
  rfl

theorem State.takeRelay_of_lt (hp : p + 2 < 65536) (h : s.cfg.relayCap < s.len.toNat - (p + 2)) :
    s.takeRelay p = .error ⟨.capacityExceeded, p + 2⟩ := by
  rw [State.takeRelay, State.takeRest_cursorAt_of_lt hp h]
  rfl

theorem State.reads_takeSubframe (s : State) (p : Nat) :
    s.Reads p [1, 1] (s.cursorAt p).takeSubframe (s.takeRelay p) :=
  (s.reads_take p Nat.one_pos).andThen rfl <| (s.reads_take (p + 1) Nat.one_pos).andThen rfl <| .refl s (p + 2) _

end

theorem decSrs_runsAs : RunsAs .decSrs 0x42#8 decodeSubframe := runsAs_opBody rfl nofun nofun

theorem decodeSubframe_reads (s : State) :
    s.Reads s.cur.toNat [1, 1] (decodeSubframe s)
      (s.takeRelay s.cur.toNat >>= fun (f, t) => .ok (t.commitSubframe f)) := by
  have hreads := s.reads_takeSubframe s.cur.toNat
  rw [State.cursorAt_cur] at hreads
  exact hreads.bind _

/-- Settles O35. -/
theorem decSrsTakesCountIndexAndRest : Obligations.DecSrsTakesCountIndexAndRest := by
  refine ⟨decSrs_runsAs.encoded, fun s hp => ?_⟩
  have hlen := s.len.isLt
  have hcur := s.cur.isLt
  obtain ⟨hfits, hshort⟩ := decodeSubframe_reads s
  refine ⟨fun hints hrelay => ?_, fun hnone => ?_, fun hone => ?_, fun hover => ?_⟩
  · have hbody := hfits hcur ((firstUnfit_eq_none_iff (by simp)).mpr hints)
    rw [State.takeRelay_of_le (by omega) (by omega)] at hbody
    refine ⟨_, decSrs_runsAs.next_of_ok hp hbody, ?_, ?_⟩
    · simp [State.commitSubframe, State.setRelay, State.subframeAt, State.ofNat_wire_one, Nat.sub_sub]
      rfl
    · rw [Nat.sub_sub, State.scope_eq_restFrom]
      exact stored_of_setSeq rfl rfl
  · exact decSrs_runsAs.next_of_error hp (hshort hcur _ (if_pos (by omega)))
  · exact decSrs_runsAs.next_of_error hp (hshort hcur _ ((if_neg (by omega)).trans (if_pos (by omega))))
  · have hbody := hfits hcur ((firstUnfit_eq_none_iff (by simp)).mpr (by simp; omega))
    rw [State.takeRelay_of_lt (by omega) (by omega)] at hbody
    exact decSrs_runsAs.next_of_error hp hbody

/-! ### Header (R172) -/

/-- The widths of the header's integer fields before the source-route subframe. -/
def integerWidths (fc : Word16) : List Nat :=
  [2, 2, 2, 1, 1] ++ (if bit fc 11 = 1 then [8] else []) ++ (if bit fc 12 = 1 then [8] else []) ++
    (if bit fc 8 = 1 then [1] else [])

theorem headerWidths_eq (fc : Word16) :
    headerWidths fc = integerWidths fc ++ if bit fc 10 = 1 then [1, 1] else [] := rfl

theorem integerWidths_eq (fc : Word16) :
    integerWidths fc = [2] ++ ([2] ++ ([2] ++ ([1] ++ ([1] ++ ((if bit fc 11 = 1 then [8] else []) ++
      ((if bit fc 12 = 1 then [8] else []) ++ ((if bit fc 8 = 1 then [1] else []) ++ []))))))) := by
  simp [integerWidths]

theorem integerWidths_sum (fc : Word16) : (integerWidths fc).sum = headerLength fc := by
  simp only [integerWidths, List.sum_append, flagged_sum, headerLength, Nat.one_mul]
  rfl

theorem integerWidths_dropReservedFc (w : Word16) : integerWidths (dropReservedFc w) = integerWidths w := by
  simp only [integerWidths, bit_dropReservedFc, Nat.reduceLT]

theorem headerLength_dropReservedFc (w : Word16) : headerLength (dropReservedFc w) = headerLength w := by
  rw [← integerWidths_sum, integerWidths_dropReservedFc, integerWidths_sum]

/-- The header at the index `c` of the scope, with the FrameControl word `fc` and the subframe `f`. -/
def State.headerAt (s : State) (c : Nat) (fc : Word16) (f : Subframe) : Header where
  fc := fc
  dst := BitVec.ofNat 16 (s.wire (c + 2) 2)
  src := BitVec.ofNat 16 (s.wire (c + 4) 2)
  radius := BitVec.ofNat 8 (s.wire (c + 6) 1)
  seq := BitVec.ofNat 8 (s.wire (c + 7) 1)
  dieee := BitVec.ofNat 64 (if bit fc 11 = 1 then s.wire (c + 8) 8 else 0)
  sieee := BitVec.ofNat 64 (if bit fc 12 = 1 then s.wire (c + 8 + 8 * bit fc 11) 8 else 0)
  mc := BitVec.ofNat 8 (if bit fc 8 = 1 then s.wire (c + 8 + 8 * bit fc 11 + 8 * bit fc 12) 1 else 0)
  subframe := f

/-- The header decode takes the integer fields, and then the subframe. -/
theorem State.reads_takeHeader (s : State) (c : Nat) {fc : Word16}
    (hfc : fc = dropReservedFc (BitVec.ofNat 16 (s.wire c 2))) :
    s.Reads c (integerWidths fc) (s.cursorAt c).takeHeader
      ((s.cursorAt (c + headerLength fc)).takeSubframeIf (hasSrs fc) >>= fun (f, t) =>
        .ok (s.headerAt c fc f, t)) := by
  subst hfc
  have hend (b11 b12 b8 : Nat) : c + 8 + 8 * b11 + 8 * b12 + 1 * b8 = c + (8 + 8 * b11 + 8 * b12 + b8) := by omega
  rw [integerWidths_eq]
  refine (s.reads_take c Nat.two_pos).andThen (q := c + 2) rfl ?_
  refine (s.reads_take (c + 2) Nat.two_pos).andThen (q := c + 4) rfl ?_
  refine (s.reads_take (c + 4) Nat.two_pos).andThen (q := c + 6) rfl ?_
  refine (s.reads_take (c + 6) Nat.one_pos).andThen (q := c + 7) rfl ?_
  refine (s.reads_take (c + 7) Nat.one_pos).andThen (q := c + 8) rfl ?_
  refine (s.reads_takeIf (c + 8) (hasDieee_iff _) (by decide)).andThen (by rw [flagged_sum]) ?_
  refine (s.reads_takeIf _ (hasSieee_iff _) (by decide)).andThen (by rw [flagged_sum]) ?_
  refine (s.reads_takeIf _ (hasMc_iff _) (by decide)).andThen (by rw [flagged_sum]) ?_
  dsimp only
  rw [hend, ← headerLength]
  exact .refl s _ _

theorem headerWidths_sum (fc : Word16) : (headerWidths fc).sum = headerLength fc + 2 * bit fc 10 := by
  rw [headerWidths_eq, List.sum_append, integerWidths_sum]
  obtain h | h := bit_cases fc 10 <;> simp [h]

theorem headerWidths_fit_iff (limit c : Nat) (fc : Word16) :
    firstUnfit limit c (headerWidths fc) = none ↔ c + headerLength fc + 2 * bit fc 10 ≤ limit := by
  rw [firstUnfit_eq_none_iff (by simp [headerWidths]), headerWidths_sum, Nat.add_assoc]

/-- The state of a header decode from index `c` with a source-route subframe: the registers, and the relay list. -/
def State.routedHeader (s : State) (c : Nat) (fc : Word16) : State :=
  { s.withRoutedHeader c fc with rl := Memory.setSeq s.rl 0 (s.restFrom (c + headerLength fc + 2)) }

section
variable (s : State) (c : Nat) (fc : Word16)

theorem State.commitHeader_eq_withPlainHeader :
    (s.cursorAt (c + headerLength fc)).commitHeader (s.headerAt c (dropReservedFc fc) .absent) =
      s.withPlainHeader c fc := by
  simp only [State.withPlainHeader, State.commitHeader, State.headerAt, State.setFc, dropReservedFc_idem,
    bit_dropReservedFc, Nat.reduceLT, ← dropReservedFc_eq, apply_ite (BitVec.ofNat _)]
  rfl

theorem State.commitHeader_eq_routedHeader :
    { s with cur := s.len }.commitHeader
      (s.headerAt c (dropReservedFc fc) (s.subframeAt (c + headerLength fc))) = s.routedHeader c fc := by
  have hplain := s.commitHeader_eq_withPlainHeader c fc
  rw [State.routedHeader, State.withRoutedHeader, ← hplain, ← State.restFrom_length]
  rfl

end

section
variable {s : State}

theorem State.reads_decodeHeader (s : State) :
    s.Reads s.cur.toNat (integerWidths s.nextFc) (decodeHeader s)
      ((s.cursorAt (s.cur.toNat + headerLength s.nextFc)).takeSubframeIf (hasSrs (dropReservedFc s.nextFc)) >>=
        fun (f, t) => .ok (t.commitHeader (s.headerAt s.cur.toNat (dropReservedFc s.nextFc) f))) := by
  have hheader := (s.reads_takeHeader s.cur.toNat rfl).bind fun (hd, t) => .ok (t.commitHeader hd)
  rw [State.cursorAt_cur, bind_assoc] at hheader
  rw [← integerWidths_dropReservedFc, ← headerLength_dropReservedFc]
  exact hheader

theorem State.reads_decodeHeader_plain (h : bit s.nextFc 10 = 0) :
    s.Reads s.cur.toNat (headerWidths s.nextFc) (decodeHeader s)
      (.ok (s.withPlainHeader s.cur.toNat s.nextFc)) := by
  have hreads := s.reads_decodeHeader
  have habsent : hasSrs (dropReservedFc s.nextFc) = false := by
    simpa [bit_dropReservedFc, h] using hasSrs_iff (dropReservedFc s.nextFc)
  rw [habsent] at hreads
  rw [headerWidths_eq, if_neg (by omega), List.append_nil, ← State.commitHeader_eq_withPlainHeader]
  exact hreads

theorem State.reads_decodeHeader_routed (h : bit s.nextFc 10 = 1) :
    s.Reads s.cur.toNat (headerWidths s.nextFc) (decodeHeader s)
      (s.takeRelay (s.cur.toNat + headerLength s.nextFc) >>= fun (f, t) =>
        .ok (t.commitHeader (s.headerAt s.cur.toNat (dropReservedFc s.nextFc) f))) := by
  have hreads := s.reads_decodeHeader
  have hpresent : hasSrs (dropReservedFc s.nextFc) = true := by
    rwa [hasSrs_iff, bit_dropReservedFc _ (by decide)]
  rw [hpresent] at hreads
  rw [headerWidths_eq, if_pos h]
  exact hreads.trans (by rw [integerWidths_sum]) ((s.reads_takeSubframe _).bind _)

/-- An integer field of the header that is not in the scope. -/
theorem decodeHeader_of_firstUnfit {p : Nat}
    (h : firstUnfit s.len.toNat s.cur.toNat (headerWidths s.nextFc) = some p) :
    decodeHeader s = .error ⟨.insufficientBytes, p⟩ := by
  obtain hplain | hrouted := bit_cases s.nextFc 10
  · exact (State.reads_decodeHeader_plain hplain).short s.cur.isLt p h
  · exact (State.reads_decodeHeader_routed hrouted).short s.cur.isLt p h

theorem decodeHeader_plain (h : bit s.nextFc 10 = 0)
    (hfit : s.cur.toNat + headerLength s.nextFc ≤ s.len.toNat) :
    decodeHeader s = .ok (s.withPlainHeader s.cur.toNat s.nextFc) :=
  (State.reads_decodeHeader_plain h).fits s.cur.isLt ((headerWidths_fit_iff _ _ _).mpr (by omega))

section
variable (h : bit s.nextFc 10 = 1) (hfit : s.cur.toNat + headerLength s.nextFc + 2 ≤ s.len.toNat)
include h hfit

theorem decodeHeader_routed
    (hrelay : s.len.toNat - (s.cur.toNat + headerLength s.nextFc + 2) ≤ s.cfg.relayCap) :
    decodeHeader s = .ok (s.routedHeader s.cur.toNat s.nextFc) := by
  have hreads := (State.reads_decodeHeader_routed h).fits s.cur.isLt ((headerWidths_fit_iff _ _ _).mpr (by omega))
  have hlen := s.len.isLt
  rw [State.takeRelay_of_le (by omega) hrelay] at hreads
  rw [hreads, ← State.commitHeader_eq_routedHeader]
  rfl

theorem decodeHeader_of_relay_lt
    (hover : s.cfg.relayCap < s.len.toNat - (s.cur.toNat + headerLength s.nextFc + 2)) :
    decodeHeader s = .error ⟨.capacityExceeded, s.cur.toNat + headerLength s.nextFc + 2⟩ := by
  have hreads := (State.reads_decodeHeader_routed h).fits s.cur.isLt ((headerWidths_fit_iff _ _ _).mpr (by omega))
  have hlen := s.len.isLt
  rw [State.takeRelay_of_lt (by omega) hover] at hreads
  exact hreads

end

/-- All a header decode can do where it succeeds. -/
theorem decodeHeader_cases {t : State} (h : decodeHeader s = .ok t) :
    (bit s.nextFc 10 = 0 ∧ s.cur.toNat + headerLength s.nextFc ≤ s.len.toNat ∧
      t = s.withPlainHeader s.cur.toNat s.nextFc) ∨
    (bit s.nextFc 10 = 1 ∧ s.cur.toNat + headerLength s.nextFc + 2 ≤ s.len.toNat ∧
      t = s.routedHeader s.cur.toNat s.nextFc) := by
  have hints : s.cur.toNat + headerLength s.nextFc + 2 * bit s.nextFc 10 ≤ s.len.toNat := by
    rw [← headerWidths_fit_iff]
    cases hunfit : firstUnfit s.len.toNat s.cur.toNat (headerWidths s.nextFc) with
    | none => rfl
    | some p => cases (decodeHeader_of_firstUnfit hunfit).symm.trans h
  obtain hplain | hrouted := bit_cases s.nextFc 10
  · have hfit : s.cur.toNat + headerLength s.nextFc ≤ s.len.toNat := by omega
    exact .inl ⟨hplain, hfit, by cases (decodeHeader_plain hplain hfit).symm.trans h; rfl⟩
  · have hfit : s.cur.toNat + headerLength s.nextFc + 2 ≤ s.len.toNat := by omega
    by_cases hrelay : s.len.toNat - (s.cur.toNat + headerLength s.nextFc + 2) ≤ s.cfg.relayCap
    · exact .inr ⟨hrouted, hfit, by cases (decodeHeader_routed hrouted hfit hrelay).symm.trans h; rfl⟩
    · cases (decodeHeader_of_relay_lt hrouted hfit (by omega)).symm.trans h

end

theorem decHdr_runsAs : RunsAs .decHdr 0x43#8 decodeHeader := runsAs_opBody rfl nofun nofun

theorem decFrm_runsAs : RunsAs .decFrm 0x45#8 decodeFrame := runsAs_opBody rfl nofun nofun

/-- Settles O37. -/
theorem decHdrReadsEveryField : Obligations.DecHdrReadsEveryField := fun _ hp hplain hfit =>
  decHdr_runsAs.next_of_ok hp (decodeHeader_plain hplain hfit)

/-- Settles O38. -/
theorem decHdrReadsSourceRoute : Obligations.DecHdrReadsSourceRoute := by
  intro s hp hrouted hfit hrelay
  refine ⟨_, decHdr_runsAs.next_of_ok hp (decodeHeader_routed hrouted hfit hrelay), rfl, ?_⟩
  rw [State.scope_eq_restFrom]
  exact stored_of_setSeq rfl rfl

/-! ### Whole frames (R177) -/

/-- A frame decode is a header decode, and then the arm of the word in `FC`. -/
theorem decodeFrame_eq_header_then_arm (s : State) :
    decodeFrame s = decodeHeader s >>= fun t => decodeArm t.fc t := by
  rw [decodeFrame, decodeHeader]
  cases s.takeHeader with
  | error f => rfl
  | ok r =>
    obtain ⟨hd, t⟩ := r
    change decodeArm hd.fc _ = decodeArm (dropReservedFc hd.fc) _
    rw [decodeArm_dropReservedFc]

theorem decodeFrame_of_header_error {s : State} {f : Failure} (h : decodeHeader s = .error f) :
    decodeFrame s = .error f := by
  rw [decodeFrame_eq_header_then_arm, h]
  rfl

theorem decodeFrame_of_header_ok {s t : State} (h : decodeHeader s = .ok t) :
    decodeFrame s = decodeArm t.fc t := by
  rw [decodeFrame_eq_header_then_arm, h]
  rfl

/-- A header that cannot be decoded fails both operations that begin with it. -/
theorem exec_of_header_error {s : State} {i : Instr} {e : ErrCode} {p : Nat} (hi : i = .decHdr ∨ i = .decFrm)
    (hp : s.phase ≠ .failed) (h : decodeHeader s = .error ⟨e, p⟩) : exec i s = .next (s.raised e p i.opCode) := by
  obtain rfl | rfl := hi
  · exact decHdr_runsAs.next_of_error hp h
  · exact decFrm_runsAs.next_of_error hp (decodeFrame_of_header_error h)

/-- Settles O39. -/
theorem headerFailsAtTheFirstBadField : Obligations.HeaderFailsAtTheFirstBadField := by
  refine fun s i hi hp => ⟨fun p hunfit => exec_of_header_error hi hp (decodeHeader_of_firstUnfit hunfit),
    fun hints hrouted hover => exec_of_header_error hi hp (decodeHeader_of_relay_lt hrouted ?_ hover)⟩
  rwa [headerWidths_fit_iff, hrouted] at hints

end Sys2Proof.Machine
end

section
/-! PROOFS. Whole frames decoded (42_nwk_frame.md R177 to R181, R192): a header decode, and then the arm of the frame
type on the state it left. A wire row (30_encoding.md R105) is `DEC.FRM` on its own word, so it needs no proof of its
own. -/

namespace Sys2Proof.Machine

/-! ### The arms on the state after the header (R178 to R181) -/

section
variable {s : State}

/-- The state after the arm Data or NwkCommand (R178, R179): an identifier, and the bytes `b` up to `LEN` as payload. -/
def State.withBody (s : State) (cid : Byte) (b : List Byte) : State :=
  { s with cid := cid, cur := s.len }.setPayload b

theorem decodeArmData_of_le (h : s.len.toNat - s.cur.toNat ≤ s.cfg.payloadCap) :
    decodeArmData s = .ok (s.withBody 0 (s.restFrom s.cur.toNat)) := by
  rw [decodeArmData, State.takeRest_of_le h]
  rfl

theorem decodeArmData_of_lt (h : s.cfg.payloadCap < s.len.toNat - s.cur.toNat) :
    decodeArmData s = .error ⟨.capacityExceeded, s.cur.toNat⟩ := by
  rw [decodeArmData, State.takeRest_of_lt h]
  rfl

/-- The arm NwkCommand takes the identifier, and then the rest of the scope. -/
theorem reads_decodeArmCommand (s : State) :
    s.Reads s.cur.toNat [1] (decodeArmCommand s)
      ((s.cursorAt (s.cur.toNat + 1)).takeRest s.cfg.payloadCap >>= fun (p, t) =>
        .ok ({ t with cid := s.readByte .ib s.cur.toNat }.setPayload p)) := by
  have hreads := s.reads_take s.cur.toNat Nat.one_pos
  rw [State.cursorAt_cur] at hreads
  refine hreads.andThen (ws' := []) rfl ?_
  rw [← State.ofNat_wire_one]
  exact .refl s _ _

theorem decodeArmCommand_of_le (hid : s.cur.toNat + 1 ≤ s.len.toNat)
    (h : s.len.toNat - (s.cur.toNat + 1) ≤ s.cfg.payloadCap) :
    decodeArmCommand s = .ok (s.withBody (s.readByte .ib s.cur.toNat) (s.restFrom (s.cur.toNat + 1))) := by
  have hlen := s.len.isLt
  have hreads := (reads_decodeArmCommand s).fits s.cur.isLt ((firstUnfit_eq_none_iff (by simp)).mpr hid)
  rw [State.takeRest_cursorAt_of_le (by omega) h] at hreads
  exact hreads

theorem decodeArmCommand_of_lt (hid : s.cur.toNat + 1 ≤ s.len.toNat)
    (h : s.cfg.payloadCap < s.len.toNat - (s.cur.toNat + 1)) :
    decodeArmCommand s = .error ⟨.capacityExceeded, s.cur.toNat + 1⟩ := by
  have hlen := s.len.isLt
  have hreads := (reads_decodeArmCommand s).fits s.cur.isLt ((firstUnfit_eq_none_iff (by simp)).mpr hid)
  rw [State.takeRest_cursorAt_of_lt (by omega) h] at hreads
  exact hreads

theorem decodeArmCommand_of_none (h : s.len.toNat ≤ s.cur.toNat) :
    decodeArmCommand s = .error ⟨.insufficientBytes, s.cur.toNat⟩ :=
  (reads_decodeArmCommand s).short s.cur.isLt _ (if_pos (by omega))

end

/-- A body is a payload, an identifier with a payload, or empty (30_encoding.md R94). -/
theorem body_cases (fc : Word16) : fc.toNat % 4 = 0 ∨ fc.toNat % 4 = 1 ∨ 2 ≤ fc.toNat % 4 := by omega

theorem decodeArm_of_headerOnly {fc : Word16} (h : 2 ≤ fc.toNat % 4) (s : State) :
    decodeArm fc s = .ok { s with cid := 0, plen := 0 } := by
  obtain htype | htype : fc.toNat % 4 = 2 ∨ fc.toNat % 4 = 3 := by omega
  · rw [decodeArm_eq_reserved htype]
    rfl
  · rw [decodeArm_eq_interPan htype]
    rfl

/-! ### Frames without a source-route subframe -/

theorem decodeFrameWord_eq_data {w : Word16} (h : w.toNat % 4 = 0) :
    decodeFrameWord w = .nwkData (dropReservedFc w) := by
  simp [decodeFrameWord, h]

theorem decodeFrameWord_eq_command {w : Word16} (h : w.toNat % 4 = 1) :
    decodeFrameWord w = .nwkCmd (dropReservedFc w) := by
  simp [decodeFrameWord, h]

theorem decodeFrameWord_eq_reserved {w : Word16} (h : w.toNat % 4 = 2) :
    decodeFrameWord w = .nwkRsvd (dropReservedFc w) := by
  simp [decodeFrameWord, h]

theorem decodeFrameWord_eq_interPan {w : Word16} (h : w.toNat % 4 = 3) :
    decodeFrameWord w = .nwkInterPan (dropReservedFc w) := by
  simp [decodeFrameWord, h]

theorem eight_le_headerLength (fc : Word16) : 8 ≤ headerLength fc := by
  rw [headerLength]
  omega

section
variable {s t : State} {c : Nat} {fc : Word16}

theorem State.withPlainHeader_fc (s : State) (c : Nat) (fc : Word16) :
    (s.withPlainHeader c fc).fc = dropReservedFc fc :=
  (dropReservedFc_eq fc).symm

theorem State.routedHeader_fc (s : State) (c : Nat) (fc : Word16) : (s.routedHeader c fc).fc = dropReservedFc fc :=
  (dropReservedFc_eq fc).symm

theorem State.withPlainHeader_cur_toNat (h : c + headerLength fc ≤ s.len.toNat) :
    (s.withPlainHeader c fc).cur.toNat = c + headerLength fc :=
  s.cursorAt_cur_toNat (h.trans_lt s.len.isLt)

/-- The header decode leaves `IB` and `LEN` alone. -/
theorem State.withPlainHeader_restFrom (p : Nat) : (s.withPlainHeader c fc).restFrom p = s.restFrom p :=
  State.readBytes_congr (s := s) (t := s.withPlainHeader c fc) (sp := .ib) rfl rfl p _

theorem State.withPlainHeader_readByte (sp : Space) (i : Nat) :
    (s.withPlainHeader c fc).readByte sp i = s.readByte sp i := by
  cases sp <;> rfl

/-- The header read, the arm is that of the FrameControl word at the cursor. -/
theorem decodeFrame_plain (hplain : bit s.nextFc 10 = 0)
    (hfit : s.cur.toNat + headerLength s.nextFc ≤ s.len.toNat) :
    decodeFrame s = decodeArm s.nextFc (s.withPlainHeader s.cur.toNat s.nextFc) := by
  rw [decodeFrame_of_header_ok (decodeHeader_plain hplain hfit), State.withPlainHeader_fc, decodeArm_dropReservedFc]

theorem decodeFrame_routed (hrouted : bit s.nextFc 10 = 1)
    (hfit : s.cur.toNat + headerLength s.nextFc + 2 ≤ s.len.toNat)
    (hrelay : s.len.toNat - (s.cur.toNat + headerLength s.nextFc + 2) ≤ s.cfg.relayCap) :
    decodeFrame s = decodeArm s.nextFc (s.routedHeader s.cur.toNat s.nextFc) := by
  rw [decodeFrame_of_header_ok (decodeHeader_routed hrouted hfit hrelay), State.routedHeader_fc,
    decodeArm_dropReservedFc]

/-- A frame decode that completes is that of the wire row of the word at the cursor (R105, log entry 6). -/
theorem exec_decFrm_and_row (hp : s.phase ≠ .failed)
    (hfit : s.cur.toNat + headerLength s.nextFc ≤ s.len.toNat) (h : decodeFrame s = .ok t) :
    exec .decFrm s = .next (t.doneWith 0x45#8) ∧ exec (decodeFrameWord s.nextFc) s = .next (t.doneWith 0x45#8) := by
  have hlength := eight_le_headerLength s.nextFc
  have hnext := decFrm_runsAs.next_of_ok hp h
  exact ⟨hnext, (exec_decFrm_eq_exec_row (by omega)).symm.trans hnext⟩

/-- A frame whose body ends with the payload from the index `p`, as the statements write it. -/
theorem withBody_outcome (s : State) (c : Nat) (fc : Word16) (cid : Byte) (p : Nat) {t : State}
    (ht : t = ((s.withPlainHeader c fc).withBody cid (s.restFrom p)).doneWith 0x45#8) :
    t = { (s.withPlainHeader c fc) with
      cid := cid
      plen := BitVec.ofNat 16 (s.len.toNat - p)
      pl := t.pl
      cur := s.len }.doneWith 0x45#8 ∧
    Stored .pl (s.scope p (s.len.toNat - p)) s t := by
  subst ht
  rw [State.scope_eq_restFrom, ← State.restFrom_length]
  exact ⟨rfl, stored_of_setSeq rfl rfl⟩

end

/-- Settles O42. -/
theorem decFrmDataTakesThePayload : Obligations.DecFrmDataTakesThePayload := by
  intro s hp htype hplain hfit
  have hcur := State.withPlainHeader_cur_toNat hfit
  have hframe := decodeFrame_plain hplain hfit
  rw [decodeArm_eq_data htype] at hframe
  constructor
  · intro hpayload
    rw [decodeArmData_of_le (by rw [hcur]; exact hpayload), hcur, State.withPlainHeader_restFrom] at hframe
    obtain ⟨hfrm, hrow⟩ := exec_decFrm_and_row hp hfit hframe
    rw [decodeFrameWord_eq_data htype, dropReservedFc_eq] at hrow
    exact ⟨_, hfrm, hrow, withBody_outcome s _ _ _ _ rfl⟩
  · intro hover
    rw [decodeArmData_of_lt (by rw [hcur]; exact hover), hcur] at hframe
    exact decFrm_runsAs.next_of_error hp hframe

/-- Settles O43. -/
theorem decFrmCommandTakesIdentifierAndPayload : Obligations.DecFrmCommandTakesIdentifierAndPayload := by
  intro s hp htype hplain hfit
  have hcur := State.withPlainHeader_cur_toNat hfit
  have hlen : (s.withPlainHeader s.cur.toNat s.nextFc).len = s.len := rfl
  have hframe := decodeFrame_plain hplain hfit
  rw [decodeArm_eq_command htype] at hframe
  refine ⟨fun hid hpayload => ?_, fun hnone => ?_, fun hover => ?_⟩
  · rw [decodeArmCommand_of_le (by rwa [hcur]) (by rw [hcur]; exact hpayload), hcur, State.withPlainHeader_restFrom,
      State.withPlainHeader_readByte] at hframe
    obtain ⟨hfrm, hrow⟩ := exec_decFrm_and_row hp hfit hframe
    rw [decodeFrameWord_eq_command htype, dropReservedFc_eq] at hrow
    exact ⟨_, hfrm, hrow, withBody_outcome s _ _ _ _ rfl⟩
  · rw [decodeArmCommand_of_none (by rw [hcur, hlen, hnone]), hcur] at hframe
    exact decFrm_runsAs.next_of_error hp hframe
  · have hbytes : s.cfg.payloadCap < s.len.toNat - (s.cur.toNat + headerLength s.nextFc + 1) := by omega
    rw [decodeArmCommand_of_lt (by rw [hcur, hlen]; omega) (by rw [hcur]; exact hbytes), hcur] at hframe
    exact decFrm_runsAs.next_of_error hp hframe

/-- Settles O44. -/
theorem decFrmHeaderOnlyFrames : Obligations.DecFrmHeaderOnlyFrames := by
  intro s hp hplain hfit
  have hframe := decodeFrame_plain hplain hfit
  constructor
  · intro htype
    rw [decodeArm_of_headerOnly (by omega)] at hframe
    have hnext := exec_decFrm_and_row hp hfit hframe
    rwa [decodeFrameWord_eq_reserved htype, dropReservedFc_eq] at hnext
  · intro htype
    rw [decodeArm_of_headerOnly (by omega)] at hframe
    have hnext := exec_decFrm_and_row hp hfit hframe
    rwa [decodeFrameWord_eq_interPan htype, dropReservedFc_eq] at hnext

/-! ### Frames with a source-route subframe (R192) -/

/-- After a source-route subframe, an arm that needs no byte leaves an empty body. -/
theorem decodeArm_routed {s : State} {c : Nat} {fc : Word16} (h : fc.toNat % 4 ≠ 1) :
    decodeArm fc (s.routedHeader c fc) = .ok { (s.routedHeader c fc) with cid := 0, plen := 0 } := by
  obtain htype | htype | htype := body_cases fc
  · have hnone : (s.routedHeader c fc).len.toNat - (s.routedHeader c fc).cur.toNat = 0 := Nat.sub_self _
    rw [decodeArm_eq_data htype, decodeArmData_of_le (by omega), State.restFrom, hnone]
    rfl
  · exact absurd htype h
  · exact decodeArm_of_headerOnly htype _

/-- Settles O45. -/
theorem sourceRouteTakesTheWholeFrame : Obligations.SourceRouteTakesTheWholeFrame := by
  intro s hp hrouted hfit hrelay
  have hframe := decodeFrame_routed hrouted hfit hrelay
  constructor
  · intro htype
    rw [decodeArm_eq_command htype, decodeArmCommand_of_none (Nat.le_refl _)] at hframe
    exact decFrm_runsAs.next_of_error hp hframe
  · intro htype
    rw [decodeArm_routed htype] at hframe
    refine ⟨_, decFrm_runsAs.next_of_ok hp hframe, rfl, ?_⟩
    rw [State.scope_eq_restFrom]
    exact stored_of_setSeq rfl rfl

end Sys2Proof.Machine
end

section
/-! PROOFS. Absent fields and the round trips of a frame (42_nwk_frame.md R189 to R191).

Both round trips rest on one fact: the registers after a frame decode encode to the bytes it consumed, the reserved bits
of the word cleared (`decodeFrame_bytes`). Decode first, that is the law. Encode first, the decoded registers encode to
the bytes that were loaded, and under the law's restriction the bytes determine the frame value
(`sameFrame_of_bytes`). -/

namespace Sys2Proof.Machine

/-! ### The bytes of decoded registers -/

section
variable {s t : State}

theorem State.readBytes_add (s : State) (sp : Space) (a m n : Nat) :
    s.readBytes sp a (m + n) = s.readBytes sp a m ++ s.readBytes sp (a + m) n := by
  induction m generalizing a with
  | zero => rw [Nat.zero_add]; rfl
  | succ m ih =>
    rw [Nat.add_right_comm, State.readBytes, State.readBytes, ih, List.cons_append, Nat.add_right_comm a 1 m]
    rfl

theorem State.restFrom_eq_cons {p : Nat} (h : p < s.len.toNat) :
    s.restFrom p = s.readByte .ib p :: s.restFrom (p + 1) := by
  obtain ⟨n, hn⟩ := Nat.exists_eq_add_of_lt h
  rw [State.restFrom, State.restFrom, show s.len.toNat - p = n + 1 by omega,
    show s.len.toNat - (p + 1) = n by omega, State.readBytes]

theorem wireBytes_one (b : Byte) : wireBytes 1 b.toNat = [b] := by
  simp [wireBytes]

/-- A register that holds the number of a field on the wire has the bytes of the field. -/
theorem State.wireBytes_ofNat_wire (s : State) (a : Nat) {n w : Nat} (hw : 2 ^ w = 256 ^ n) :
    wireBytes n (BitVec.ofNat w (s.wire a n)).toNat = s.readBytes .ib a n := by
  rw [BitVec.toNat_ofNat, hw, Nat.mod_eq_of_lt (s.wire_lt a n), State.wireBytes_wire]

/-- The same for a field that a flag gates. -/
theorem State.flagged_wireBytes (s : State) (a : Nat) {fc : Word16} {k n w : Nat} (hw : 2 ^ w = 256 ^ n) :
    (if bit fc k = 1 then
      [wireBytes n (if bit fc k = 1 then BitVec.ofNat w (s.wire a n) else 0).toNat] else []).flatten =
      s.readBytes .ib a (n * bit fc k) := by
  obtain h | h := bit_cases fc k
  · simp [h, State.readBytes]
  · rw [h, if_pos rfl, if_pos rfl, List.flatten_singleton, s.wireBytes_ofNat_wire a hw, Nat.mul_one]

theorem State.integerFields_withPlainHeader (s : State) (c : Nat) (fc : Word16) :
    (s.withPlainHeader c fc).integerFields.flatten =
      wireBytes 2 (dropReservedFc fc).toNat ++ s.readBytes .ib (c + 2) (headerLength fc - 2) := by
  have hlength : headerLength fc - 2 = 2 + (2 + (1 + (1 + (8 * bit fc 11 + (8 * bit fc 12 + 1 * bit fc 8))))) := by
    rw [headerLength]
    omega
  have h11 := s.flagged_wireBytes (c + 8) (fc := fc) (k := 11) (n := 8) (w := 64) rfl
  have h12 := s.flagged_wireBytes (c + 8 + 8 * bit fc 11) (fc := fc) (k := 12) (n := 8) (w := 64) rfl
  have h8 := s.flagged_wireBytes (c + 8 + 8 * bit fc 11 + 8 * bit fc 12) (fc := fc) (k := 8) (n := 1) (w := 8) rfl
  rw [hlength]
  simp only [State.readBytes_add, ← h11, ← h12, ← h8]
  simp only [State.integerFields, State.withPlainHeader_fc, bit_dropReservedFc, Nat.reduceLT,
    List.flatten_append, List.flatten_cons, List.flatten_nil, List.append_assoc, List.append_nil]
  rw [← s.wireBytes_ofNat_wire (c + 2) (w := 16) rfl, ← s.wireBytes_ofNat_wire (c + 2 + 2) (w := 16) rfl,
    ← s.wireBytes_ofNat_wire (c + 2 + 2 + 2) (w := 8) rfl,
    ← s.wireBytes_ofNat_wire (c + 2 + 2 + 2 + 1) (w := 8) rfl]
  rfl

theorem State.relayBytes_of_setSeq {m : Memory} {r : List Byte} (hr : r.length < 65536)
    (hrl : t.rl = Memory.setSeq m 0 r) (hrlen : t.rlen = BitVec.ofNat 16 r.length) : t.relayBytes = r := by
  have hcount : t.rlen.toNat = r.length := by
    rw [hrlen, BitVec.toNat_ofNat]
    omega
  rw [← State.relay_eq_relayBytes, State.relay, hcount]
  exact State.readBytes_of_setSeq (sp := .rl) hrl

theorem State.subframeFields_routedHeader {c : Nat} {fc : Word16} (h : c + headerLength fc + 2 ≤ s.len.toNat) :
    (s.routedHeader c fc).subframeFields.flatten = s.restFrom (c + headerLength fc) := by
  have hlen := s.len.isLt
  have hrelay : (s.routedHeader c fc).relayBytes = s.restFrom (c + headerLength fc + 2) :=
    State.relayBytes_of_setSeq (m := s.rl) (by rw [State.restFrom_length]; omega) rfl
      (by rw [State.restFrom_length]; rfl)
  have hcount : (s.routedHeader c fc).rcnt = s.readByte .ib (c + headerLength fc) := s.ofNat_wire_one _
  have hindex : (s.routedHeader c fc).ridx = s.readByte .ib (c + headerLength fc + 1) := s.ofNat_wire_one _
  rw [State.subframeFields, hrelay, hcount, hindex, wireBytes_one, wireBytes_one,
    State.restFrom_eq_cons (p := c + headerLength fc) (by omega),
    State.restFrom_eq_cons (p := c + headerLength fc + 1) (by omega)]
  simp

/-- The encoded fields of the registers after a header decode are the bytes it consumed, the reserved bits of the word
cleared. -/
theorem decodeHeader_bytes (h : decodeHeader s = .ok t) :
    t.fc = dropReservedFc s.nextFc ∧ s.cur.toNat + 8 ≤ t.cur.toNat ∧ t.cur.toNat ≤ s.len.toNat ∧
      t.headerFields.flatten =
        wireBytes 2 t.fc.toNat ++ s.readBytes .ib (s.cur.toNat + 2) (t.cur.toNat - (s.cur.toNat + 2)) := by
  have hlength := eight_le_headerLength s.nextFc
  have hintegers := s.integerFields_withPlainHeader s.cur.toNat s.nextFc
  obtain ⟨hplain, hfit, rfl⟩ | ⟨hrouted, hfit, rfl⟩ := decodeHeader_cases h
  · have hfc := s.withPlainHeader_fc s.cur.toNat s.nextFc
    have hcur := State.withPlainHeader_cur_toNat hfit
    refine ⟨hfc, by omega, by omega, ?_⟩
    rw [State.headerFields_eq, hfc, bit_dropReservedFc _ (by decide), if_neg (by omega), List.append_nil, hintegers,
      hcur, Nat.add_sub_add_left]
  · have hfc := s.routedHeader_fc s.cur.toNat s.nextFc
    have hcur : (s.routedHeader s.cur.toNat s.nextFc).cur = s.len := rfl
    refine ⟨hfc, by rw [hcur]; omega, by rw [hcur], ?_⟩
    have hsame : (s.routedHeader s.cur.toNat s.nextFc).integerFields =
        (s.withPlainHeader s.cur.toNat s.nextFc).integerFields := rfl
    rw [State.headerFields_eq, hfc, bit_dropReservedFc _ (by decide), if_pos hrouted, List.flatten_append, hsame,
      hintegers, State.subframeFields_routedHeader hfit, hcur, List.append_assoc,
      show s.len.toNat - (s.cur.toNat + 2) =
        (headerLength s.nextFc - 2) + (s.len.toNat - (s.cur.toNat + headerLength s.nextFc)) by omega,
      State.readBytes_add, show s.cur.toNat + 2 + (headerLength s.nextFc - 2) =
        s.cur.toNat + headerLength s.nextFc by omega]
    rfl

section
variable {cid : Byte} {b : List Byte}

theorem State.payloadBytes_withBody (hb : b.length < 65536) : (s.withBody cid b).payloadBytes = b := by
  rw [← State.payload_eq_payloadBytes]
  exact State.payload_setPayload hb

@[simp] theorem State.withBody_cid : (s.withBody cid b).cid = cid := rfl

@[simp] theorem State.withBody_cur : (s.withBody cid b).cur = s.len := rfl

end

/-- The encoded fields of the body after an arm are the bytes it consumed; with a payload it consumes them all. -/
theorem decodeArm_bytes (h : decodeArm s.fc s = .ok t) (hcur : s.cur.toNat ≤ s.len.toNat) :
    s.cur.toNat ≤ t.cur.toNat ∧ t.cur.toNat ≤ s.len.toNat ∧ (s.fc.toNat % 4 < 2 → t.cur = s.len) ∧
      t.bodyFields.flatten = s.readBytes .ib s.cur.toNat (t.cur.toNat - s.cur.toNat) := by
  have hlen := s.len.isLt
  have hrest (p : Nat) : (s.restFrom p).length < 65536 := by rw [State.restFrom_length]; omega
  obtain htype | htype | htype := body_cases s.fc
  · rw [decodeArm_eq_data htype] at h
    by_cases hfit : s.len.toNat - s.cur.toNat ≤ s.cfg.payloadCap
    · cases (decodeArmData_of_le hfit).symm.trans h
      refine ⟨hcur, le_rfl, fun _ => rfl, ?_⟩
      rw [State.bodyFields_of_data (s := s.withBody _ _) htype, List.flatten_singleton,
        State.payloadBytes_withBody (hrest _)]
      rfl
    · cases (decodeArmData_of_lt (by omega)).symm.trans h
  · rw [decodeArm_eq_command htype] at h
    by_cases hid : s.cur.toNat + 1 ≤ s.len.toNat
    · by_cases hfit : s.len.toNat - (s.cur.toNat + 1) ≤ s.cfg.payloadCap
      · cases (decodeArmCommand_of_le hid hfit).symm.trans h
        refine ⟨hcur, le_rfl, fun _ => rfl, ?_⟩
        rw [State.bodyFields_of_command (s := s.withBody _ _) htype, State.payloadBytes_withBody (hrest _),
          State.withBody_cid, wireBytes_one, State.withBody_cur]
        change _ = s.restFrom s.cur.toNat
        rw [State.restFrom_eq_cons hid]
        simp
      · cases (decodeArmCommand_of_lt hid (by omega)).symm.trans h
    · cases (decodeArmCommand_of_none (by omega)).symm.trans h
  · rw [decodeArm_of_headerOnly htype] at h
    cases h
    refine ⟨le_rfl, hcur, by omega, ?_⟩
    rw [State.bodyFields_of_headerOnly (s := { s with cid := 0, plen := 0 }) htype, Nat.sub_self]
    rfl

/-- An arm keeps what the header decode wrote. -/
theorem ArmEffect.header {pl : Prop} (h : ArmEffect pl s t) : t.fc = s.fc ∧ t.headerFields = s.headerFields := by
  obtain ⟨u, cid, p, ⟨c, -, rfl⟩, -, -, rfl⟩ := h
  exact ⟨rfl, rfl⟩

/-- The encoded fields of the registers after a frame decode are the bytes it consumed, the reserved bits of the word
cleared; a frame with a payload consumed them all. -/
theorem decodeFrame_bytes (h : decodeFrame s = .ok t) :
    t.fc = dropReservedFc s.nextFc ∧ s.cur.toNat + 2 ≤ t.cur.toNat ∧ t.cur.toNat ≤ s.len.toNat ∧
      (t.fc.toNat % 4 < 2 → t.cur = s.len) ∧
      t.frameFields.flatten =
        wireBytes 2 t.fc.toNat ++ s.readBytes .ib (s.cur.toNat + 2) (t.cur.toNat - (s.cur.toNat + 2)) := by
  rw [decodeFrame_eq_header_then_arm] at h
  obtain ⟨u, hheader, harm⟩ := except_bind_ok h
  have hinput := decodeHeader_unwritten hheader
  have hlen : u.len = s.len := congrArg Unwritten.len hinput
  have hib : u.ib = s.ib := congrArg Unwritten.ib hinput
  have hepoch : u.epoch = s.epoch := congrArg Unwritten.epoch hinput
  obtain ⟨hufc, hstart, hend, hheaderBytes⟩ := decodeHeader_bytes hheader
  obtain ⟨hkept, hbound, hall, hbody⟩ := decodeArm_bytes harm (by rwa [hlen])
  obtain ⟨hfc, hfields⟩ := (decodeArm_armEffect (pl := True) trivial harm).header
  rw [hlen] at hbound hall
  rw [hfc]
  refine ⟨hufc, by omega, hbound, hall, ?_⟩
  rw [State.frameFields, List.flatten_append, hfields, hheaderBytes, hbody,
    State.readBytes_congr (sp := .ib) hepoch hib, List.append_assoc,
    show t.cur.toNat - (s.cur.toNat + 2) =
      (u.cur.toNat - (s.cur.toNat + 2)) + (t.cur.toNat - u.cur.toNat) by omega,
    State.readBytes_add, Nat.add_sub_cancel' (by omega)]

end

/-! ### Absent fields (R189) -/

/-- The register of every field whose flag is clear is 0. -/
def State.AbsentFieldsZero (s : State) : Prop :=
  (bit s.fc 11 = 0 → s.dieee = 0) ∧ (bit s.fc 12 = 0 → s.sieee = 0) ∧ (bit s.fc 8 = 0 → s.mc = 0) ∧
    (bit s.fc 10 = 0 → s.rcnt = 0 ∧ s.ridx = 0 ∧ s.rlen = 0)

section
variable {s t : State}

theorem decodeHeader_absentFieldsZero (h : decodeHeader s = .ok t) : t.AbsentFieldsZero := by
  have hbit {k : Nat} (hk : k < 14) : bit (dropReservedFc s.nextFc) k = bit s.nextFc k := bit_dropReservedFc _ hk
  obtain ⟨-, -, rfl⟩ | ⟨hrouted, -, rfl⟩ := decodeHeader_cases h
  · rw [State.AbsentFieldsZero, State.withPlainHeader_fc, hbit (by decide), hbit (by decide), hbit (by decide)]
    exact ⟨fun h => if_neg (by omega), fun h => if_neg (by omega), fun h => if_neg (by omega),
      fun _ => ⟨rfl, rfl, rfl⟩⟩
  · rw [State.AbsentFieldsZero, State.routedHeader_fc, hbit (by decide), hbit (by decide), hbit (by decide),
      hbit (by decide)]
    exact ⟨fun h => if_neg (by omega), fun h => if_neg (by omega), fun h => if_neg (by omega), by omega⟩

theorem ArmEffect.absentFieldsZero {pl : Prop} (h : ArmEffect pl s t) (hs : s.AbsentFieldsZero) :
    t.AbsentFieldsZero := by
  obtain ⟨u, cid, p, ⟨c, -, rfl⟩, -, -, rfl⟩ := h
  exact hs

/-- Without a source-route subframe, a header has the length its flags say (30_encoding.md R89). -/
theorem decodeHeader_cur (h : decodeHeader s = .ok t) (hplain : bit t.fc 10 = 0) :
    t.cur.toNat = s.cur.toNat + headerLength t.fc := by
  obtain ⟨-, hfit, rfl⟩ | ⟨hrouted, -, rfl⟩ := decodeHeader_cases h
  · rw [State.withPlainHeader_cur_toNat hfit, State.withPlainHeader_fc, headerLength_dropReservedFc]
  · rw [State.routedHeader_fc, bit_dropReservedFc _ (by decide)] at hplain
    omega

theorem State.bodyFields_length (s : State) :
    s.bodyFields.flatten.length = if s.fc.toNat % 4 < 2 then s.fc.toNat % 4 + s.plen.toNat else 0 := by
  have hpayload := s.payloadBytes_length
  have hcid := wireBytes_length 1 s.cid.toNat
  obtain h | h | h := body_cases s.fc
  · rw [State.bodyFields_of_data h]
    simp [h, hpayload]
  · rw [State.bodyFields_of_command h]
    simp [h, hpayload, hcid]
  · rw [State.bodyFields_of_headerOnly h, if_neg (by omega)]
    rfl

/-- Without a source-route subframe, a frame is a header, a body, and for a frame with a payload nothing else. -/
theorem decodeFrame_cur (h : decodeFrame s = .ok t) (hplain : bit t.fc 10 = 0) :
    (2 ≤ t.fc.toNat % 4 → t.cur.toNat = s.cur.toNat + headerLength t.fc) ∧
    (t.fc.toNat % 4 < 2 →
      s.cur.toNat + headerLength t.fc + t.fc.toNat % 4 + t.plen.toNat = s.len.toNat) := by
  rw [decodeFrame_eq_header_then_arm] at h
  obtain ⟨u, hheader, harm⟩ := except_bind_ok h
  have hlen : u.len = s.len := congrArg Unwritten.len (decodeHeader_unwritten hheader)
  obtain ⟨-, -, hend, -⟩ := decodeHeader_bytes hheader
  obtain ⟨hkept, -, hall, hbody⟩ := decodeArm_bytes harm (by rwa [hlen])
  obtain ⟨hfc, -⟩ := (decodeArm_armEffect (pl := True) trivial harm).header
  have hucur := decodeHeader_cur hheader (hfc ▸ hplain)
  have hlength := t.bodyFields_length
  rw [hbody, State.readBytes_length] at hlength
  rw [hfc] at hlength ⊢
  constructor
  · intro htype
    rw [if_neg (by omega)] at hlength
    omega
  · intro htype
    rw [if_pos htype, hall htype, hlen] at hlength
    omega

end

/-- Settles O41. -/
theorem clearFlagMeansAbsentField : Obligations.ClearFlagMeansAbsentField := by
  rintro i s t (rfl | rfl) hp hexec hdone
  · obtain ⟨u, hu, rfl⟩ := decHdr_runsAs.ok_of_done hp hexec hdone
    obtain ⟨hdieee, hsieee, hmc, hroute⟩ := decodeHeader_absentFieldsZero hu
    exact ⟨hdieee, hsieee, hmc, hroute, fun hplain _ => decodeHeader_cur (t := u) hu hplain, nofun⟩
  · obtain ⟨u, hu, rfl⟩ := decFrm_runsAs.ok_of_done hp hexec hdone
    have habsent : u.AbsentFieldsZero := by
      rw [decodeFrame_eq_header_then_arm] at hu
      obtain ⟨v, hheader, harm⟩ := except_bind_ok hu
      exact (decodeArm_armEffect (pl := True) trivial harm).absentFieldsZero (decodeHeader_absentFieldsZero hheader)
    obtain ⟨hdieee, hsieee, hmc, hroute⟩ := habsent
    exact ⟨hdieee, hsieee, hmc, hroute,
      fun hplain htype => (decodeFrame_cur hu hplain).1 (htype.resolve_left nofun),
      fun hplain _ => (decodeFrame_cur hu hplain).2⟩

/-! ### Decode, then encode (R191) -/

/-- The bytes of a frame as they are encoded again: bits 7:6 of byte 1 are the reserved bits of the word. -/
theorem State.consumed_getElem {s : State} {n i : Nat} (hcur : s.cur = 0)
    (h : i < (wireBytes 2 (dropReservedFc s.nextFc).toNat ++ s.readBytes .ib 2 n).length) :
    (wireBytes 2 (dropReservedFc s.nextFc).toNat ++ s.readBytes .ib 2 n)[i] =
      if i = 1 then BitVec.ofNat 8 ((s.readByte .ib i).toNat % 0x40) else s.readByte .ib i := by
  obtain ⟨hlow, hhigh⟩ := s.bytes_of_masked_wire 0
  have hword : (dropReservedFc s.nextFc).toNat = s.wire 0 2 % 0x4000 := by
    rw [State.nextFc, hcur, dropReservedFc_toNat, BitVec.toNat_ofNat, Nat.mod_mod_of_dvd _ (by decide)]
    rfl
  match i with
  | 0 => simpa [wireBytes, hword] using hlow
  | 1 => simpa [wireBytes, hword] using hhigh
  | i + 2 =>
    rw [List.getElem_append_right (by rw [wireBytes_length]; omega), State.readBytes_getElem, wireBytes_length,
      if_neg (by omega)]
    congr 1
    omega

/-- Settles O48. -/
theorem decodeThenEncodeReproducesTheBytes : Obligations.DecodeThenEncodeReproducesTheBytes := by
  intro s t hp hcur hempty hob hexec hdone
  obtain ⟨v, hv, rfl⟩ := decFrm_runsAs.ok_of_done hp hexec hdone
  obtain ⟨hfc, hstart, hend, hall, hbytes⟩ := decodeFrame_bytes hv
  have hzero : s.cur.toNat = 0 := congrArg BitVec.toNat hcur
  have holen : v.olen = 0 := (decodeFrame_decodeEffect (pl := True) (rl := True) trivial trivial hv).olen.trans hempty
  have hcfg : v.cfg = s.cfg := congrArg Unwritten.cfg (decodeFrame_unwritten hv)
  rw [hzero, Nat.zero_add, hfc] at hbytes
  have hlength : v.frameFields.flatten.length = v.cur.toNat := by
    rw [hbytes, List.length_append, wireBytes_length, State.readBytes_length]
    omega
  have hfit : v.frameFields.flatten.length ≤ v.cfg.obCap := by
    rw [hlength, hcfg]
    omega
  have hvzero : v.olen.toNat = 0 := congrArg BitVec.toNat holen
  obtain ⟨hencode, -⟩ := encFrmAppendsHeaderAndBody.2 (v.doneWith 0x45#8) nofun
  obtain ⟨u, hu, happended⟩ := hencode (by
    change v.olen.toNat + v.frameFields.flatten.length ≤ v.cfg.obCap
    omega)
  obtain ⟨huolen, -⟩ := happended.output holen hfit
  obtain ⟨hstate, hob', -⟩ := happended
  refine ⟨u, hu, by rw [hstate], BitVec.eq_of_toNat_eq (huolen.trans hlength), hall, fun a ha => ?_⟩
  have ha' : a < v.frameFields.flatten.length := hlength ▸ ha
  have hbyte : u.readByte .ob (v.olen.toNat + a) = v.frameFields.flatten[a] := hob' a ha'
  rw [hvzero, Nat.zero_add] at hbyte
  exact hbyte.trans ((List.getElem_of_eq hbytes ha').trans (State.consumed_getElem hcur _))

/-! ### Encode, then decode (R190) -/

section
variable {s t w : State}

theorem State.relayBytes_length (s : State) : s.relayBytes.length = s.rlen.toNat := by
  rw [State.relayBytes, List.length_ofFn]

theorem State.integerFields_widths (s : State) : s.integerFields.map List.length = integerWidths s.fc := by
  simp only [State.integerFields, integerWidths, List.map_append, List.map_cons, List.map_nil, wireBytes_length,
    apply_ite (List.map List.length)]

theorem State.headerFields_length (s : State) :
    s.headerFields.flatten.length = headerLength s.fc + if bit s.fc 10 = 1 then 2 + s.rlen.toNat else 0 := by
  have hroute : (if bit s.fc 10 = 1 then s.subframeFields else []).flatten.length =
      if bit s.fc 10 = 1 then 2 + s.rlen.toNat else 0 := by
    split
    · simp [State.subframeFields, wireBytes_length, State.relayBytes_length]
      omega
    · rfl
  have hintegers : s.integerFields.flatten.length = headerLength s.fc := by
    rw [← integerWidths_sum, List.length_flatten, State.integerFields_widths]
  rw [State.headerFields_eq, List.flatten_append, List.length_append, hintegers, hroute]

theorem State.frameFields_length (s : State) :
    s.frameFields.flatten.length = headerLength s.fc + (if bit s.fc 10 = 1 then 2 + s.rlen.toNat else 0) +
      if s.fc.toNat % 4 < 2 then s.fc.toNat % 4 + s.plen.toNat else 0 := by
  rw [State.frameFields, List.flatten_append, List.length_append, s.headerFields_length, s.bodyFields_length]

/-- Registers of one width with the same bytes are equal. -/
theorem wireBytes_inj {n k : Nat} {v v' : BitVec k} (hk : 2 ^ k = 256 ^ n)
    (h : wireBytes n v.toNat = wireBytes n v'.toNat) : v = v' := by
  have hnat := congrArg leNat h
  rw [← leBytes_eq_wireBytes, ← leBytes_eq_wireBytes, leNat_leBytes, leNat_leBytes, ← hk, Nat.mod_eq_of_lt v.isLt,
    Nat.mod_eq_of_lt v'.isLt] at hnat
  exact BitVec.eq_of_toNat_eq hnat

/-- Fields that a flag gates, at the end of a field list. -/
theorem append_flagged_inj {P : Prop} [Decidable P] {l l' m m' : List (List Byte)}
    (h : (l ++ if P then m else []) = l' ++ if P then m' else []) (hlen : m.length = m'.length) :
    l = l' ∧ (P → m = m') := by
  by_cases hP : P
  · rw [if_pos hP, if_pos hP] at h
    obtain ⟨hl, hm⟩ := List.append_inj' h hlen
    exact ⟨hl, fun _ => hm⟩
  · rw [if_neg hP, if_neg hP, List.append_nil, List.append_nil] at h
    exact ⟨h, fun hP' => absurd hP' hP⟩

theorem State.bodyFields_count (hfc : t.fc = s.fc) : s.bodyFields.length = t.bodyFields.length := by
  obtain h | h | h := body_cases s.fc
  · rw [State.bodyFields_of_data h, State.bodyFields_of_data (hfc ▸ h)]
    rfl
  · rw [State.bodyFields_of_command h, State.bodyFields_of_command (hfc ▸ h)]
    rfl
  · rw [State.bodyFields_of_headerOnly h, State.bodyFields_of_headerOnly (hfc ▸ h)]

/-- States that encode the same fields under the same word hold the same frame value. -/
theorem sameFrame_of_frameFields (hfc : t.fc = s.fc) (h : s.frameFields = t.frameFields) : SameFrame s t := by
  obtain ⟨hheader, hbody⟩ := List.append_inj' h (State.bodyFields_count hfc)
  rw [State.headerFields, State.headerFields, hfc] at hheader
  obtain ⟨hheader, hroute⟩ := append_flagged_inj hheader rfl
  obtain ⟨hheader, hmc⟩ := append_flagged_inj hheader rfl
  obtain ⟨hheader, hsieee⟩ := append_flagged_inj hheader rfl
  obtain ⟨hfixed, hdieee⟩ := append_flagged_inj hheader rfl
  simp only [List.cons.injEq, and_true] at hfixed hdieee hsieee hmc
  obtain ⟨-, hdst, hsrc, hradius, hseq⟩ := hfixed
  refine ⟨hfc.symm, wireBytes_inj rfl hdst, wireBytes_inj rfl hsrc, wireBytes_inj rfl hradius, wireBytes_inj rfl hseq,
    fun hP => wireBytes_inj rfl (hdieee hP), fun hP => wireBytes_inj rfl (hsieee hP),
    fun hP => wireBytes_inj rfl (hmc hP), fun hP => ?_, fun htype => ?_, fun htype => ?_⟩
  · have hsubframe := hroute hP
    simp only [State.subframeFields, List.cons.injEq, and_true] at hsubframe
    obtain ⟨hcount, hindex, hrelay⟩ := hsubframe
    exact ⟨wireBytes_inj rfl hcount, wireBytes_inj rfl hindex, hrelay⟩
  · rw [State.bodyFields_of_data htype, State.bodyFields_of_data (hfc ▸ htype)] at hbody
    simpa using hbody
  · rw [State.bodyFields_of_command htype, State.bodyFields_of_command (hfc ▸ htype)] at hbody
    simp only [List.cons.injEq, and_true] at hbody
    obtain ⟨hcid, hpayload⟩ := hbody
    exact ⟨wireBytes_inj rfl hcid, hpayload⟩

/-- The widths of a frame's fields follow from its word and the lengths of its relay list and payload. -/
theorem State.frameFields_widths (hfc : t.fc = s.fc) (hrelay : bit s.fc 10 = 1 → s.rlen = t.rlen)
    (hpayload : s.fc.toNat % 4 < 2 → s.plen = t.plen) :
    s.frameFields.map List.length = t.frameFields.map List.length := by
  have hheader : s.headerFields.map List.length = t.headerFields.map List.length := by
    rw [State.headerFields_eq, State.headerFields_eq, List.map_append, List.map_append, State.integerFields_widths,
      State.integerFields_widths, hfc]
    by_cases hP : bit s.fc 10 = 1
    · rw [if_pos hP, if_pos hP]
      simp [State.subframeFields, wireBytes_length, State.relayBytes_length, hrelay hP]
    · rw [if_neg hP, if_neg hP]
  have hbody : s.bodyFields.map List.length = t.bodyFields.map List.length := by
    obtain h | h | h := body_cases s.fc
    · rw [State.bodyFields_of_data h, State.bodyFields_of_data (hfc ▸ h)]
      simp [State.payloadBytes_length, hpayload (by omega)]
    · rw [State.bodyFields_of_command h, State.bodyFields_of_command (hfc ▸ h)]
      simp [State.payloadBytes_length, wireBytes_length, hpayload (by omega)]
    · rw [State.bodyFields_of_headerOnly h, State.bodyFields_of_headerOnly (hfc ▸ h)]
  rw [State.frameFields, State.frameFields, List.map_append, List.map_append, hheader, hbody]

/-- The law's restriction (R190): no source route, or a header-only frame type, or Data with no payload. -/
def State.RoundTrips (s : State) : Prop :=
  bit s.fc 10 = 0 ∨ 2 ≤ s.fc.toNat % 4 ∨ (s.fc.toNat % 4 = 0 ∧ s.plen = 0)

/-- Under the law's restriction, states with the same bytes hold the same frame value. -/
theorem sameFrame_of_bytes (hlaw : s.RoundTrips) (hfc : t.fc = s.fc)
    (hempty : bit s.fc 10 = 1 → t.plen = 0)
    (h : s.frameFields.flatten = t.frameFields.flatten) : SameFrame s t := by
  refine sameFrame_of_frameFields hfc (List.eq_iff_flatten_eq.mpr ⟨h, ?_⟩)
  have hlength := congrArg List.length h
  rw [s.frameFields_length, t.frameFields_length, hfc] at hlength
  obtain hplain | hrouted := bit_cases s.fc 10
  · refine State.frameFields_widths hfc (by omega) fun htype => BitVec.eq_of_toNat_eq ?_
    have habsent : ¬ bit s.fc 10 = 1 := by omega
    rw [if_neg habsent, if_neg habsent, if_pos htype, if_pos htype] at hlength
    omega
  · have htplen := hempty hrouted
    have hplen : s.fc.toNat % 4 < 2 → s.plen = t.plen := by
      intro htype
      obtain h | h | ⟨-, h⟩ := hlaw
      · omega
      · omega
      · rw [h, htplen]
    refine State.frameFields_widths hfc (fun _ => BitVec.eq_of_toNat_eq ?_) hplen
    rw [if_pos hrouted, if_pos hrouted] at hlength
    by_cases htype : s.fc.toNat % 4 < 2
    · rw [if_pos htype, if_pos htype, hplen htype] at hlength
      omega
    · rw [if_neg htype, if_neg htype] at hlength
      omega

theorem State.ScopeIs.front {a b : List Byte} (h : s.ScopeIs (a ++ b)) : s.readBytes .ib 0 a.length = a := by
  have hbytes := h.bytes
  rw [List.length_append, State.readBytes_add] at hbytes
  exact (List.append_inj hbytes (State.readBytes_length _ _ _ _)).1

/-- A scope that holds an encoded frame starts with its FrameControl word. -/
theorem State.ScopeIs.word (h : w.ScopeIs s.frameFields.flatten) :
    w.readBytes .ib 0 2 = wireBytes 2 s.fc.toNat := by
  obtain ⟨rest, hrest⟩ : ∃ rest, s.frameFields.flatten = wireBytes 2 s.fc.toNat ++ rest := ⟨_, rfl⟩
  rw [hrest] at h
  have hword := h.front
  rwa [wireBytes_length] at hword

theorem State.ScopeIs.nextFc (h : w.ScopeIs s.frameFields.flatten) : w.nextFc = s.fc := by
  rw [State.nextFc, h.cur, ← State.leNat_readBytes, h.word, ← leBytes_eq_wireBytes, leNat_leBytes,
    Nat.mod_eq_of_lt (show s.fc.toNat < 256 ^ 2 from s.fc.isLt), BitVec.ofNat_toNat, BitVec.setWidth_eq]

/-- Under the law's restriction an encoded frame decodes, and is consumed whole. -/
theorem decodeFrame_of_scopeIs (hscope : w.ScopeIs s.frameFields.flatten) (hlaw : s.RoundTrips)
    (hpayload : s.plen.toNat ≤ w.cfg.payloadCap) (hrelay : s.rlen.toNat ≤ w.cfg.relayCap) :
    ∃ u, decodeFrame w = .ok u ∧ u.cur = w.len ∧ (bit s.fc 10 = 1 → u.plen = 0) := by
  have hfc := hscope.nextFc
  have hcur := hscope.cur
  have hlen := hscope.len
  rw [s.frameFields_length, ← hfc] at hlen
  rw [State.RoundTrips, ← hfc] at hlaw
  rw [← hfc]
  obtain hplain | hrouted := bit_cases w.nextFc 10
  · have habsent : ¬ bit w.nextFc 10 = 1 := by omega
    rw [if_neg habsent] at hlen
    have hfit : w.cur.toNat + headerLength w.nextFc ≤ w.len.toNat := by omega
    have hend := State.withPlainHeader_cur_toNat hfit
    have hkept : (w.withPlainHeader w.cur.toNat w.nextFc).len = w.len := rfl
    have hcap : (w.withPlainHeader w.cur.toNat w.nextFc).cfg = w.cfg := rfl
    rw [decodeFrame_plain hplain hfit]
    obtain htype | htype | htype := body_cases w.nextFc
    · rw [if_pos (by omega)] at hlen
      rw [decodeArm_eq_data htype]
      exact ⟨_, decodeArmData_of_le (by rw [hend, hkept, hcap]; omega), rfl, fun h => absurd h habsent⟩
    · rw [if_pos (by omega)] at hlen
      rw [decodeArm_eq_command htype]
      exact ⟨_, decodeArmCommand_of_le (by rw [hend, hkept]; omega) (by rw [hend, hkept, hcap]; omega), rfl,
        fun h => absurd h habsent⟩
    · rw [if_neg (by omega)] at hlen
      exact ⟨_, decodeArm_of_headerOnly htype _, BitVec.eq_of_toNat_eq (hend.trans (by omega)),
        fun h => absurd h habsent⟩
  · have htype : w.nextFc.toNat % 4 ≠ 1 := by omega
    have hbody : (if w.nextFc.toNat % 4 < 2 then w.nextFc.toNat % 4 + s.plen.toNat else 0) = 0 := by
      obtain h | h | ⟨h, hplen⟩ := hlaw
      · omega
      · rw [if_neg (by omega)]
      · rw [if_pos (by omega), h, hplen]
        rfl
    rw [hbody, if_pos hrouted] at hlen
    rw [decodeFrame_routed hrouted (by omega) (by omega), decodeArm_routed htype]
    exact ⟨_, rfl, rfl, fun _ => rfl⟩

theorem hostAct_load_phase (b : List Byte) (s : State) : (hostAct (.load b) s).phase = s.phase := by
  change (s.hostLoad b).phase = s.phase
  unfold State.hostLoad
  split <;> rfl

end

/-- Settles O47: what is decoded encodes to the bytes that were loaded (`decodeFrame_bytes`), and these determine the
frame value (`sameFrame_of_bytes`). -/
theorem frameRoundTrip : Obligations.FrameRoundTrip := by
  intro s hinv hp hempty hob hib hlaw
  obtain ⟨-, -, -, hplen, hrlen, hclear, -⟩ := hinv
  have hbody : encodeFrame s = s.putSeq s.frameFields.flatten := by
    have hfit : s.olen.toNat + s.frameFields.flatten.length ≤ s.cfg.obCap := by simpa [hempty] using hob
    rw [encodeFrame_eq_putFields, State.putFields_of_le hfit, State.putSeq_eq_appended hfit]
  obtain ⟨t, ht, hdone, hcfg, hscope⟩ := encFrm_runsAs.loopback hbody hp hempty hob hib
  obtain ⟨u, hu, hend, hrouted⟩ := decodeFrame_of_scopeIs hscope hlaw (hcfg ▸ hplen) (hcfg ▸ hrlen)
  obtain ⟨hfc, hstart, -, -, hbytes⟩ := decodeFrame_bytes hu
  rw [hscope.nextFc, dropReservedFc_of_lt hclear] at hfc
  refine ⟨t, _, ht, hostAct_load_phase t.output t ▸ hdone, decFrm_runsAs.next_of_ok (by simp [hdone]) hu, rfl, ?_⟩
  rw [hscope.cur, Nat.zero_add] at hstart hbytes
  have hlength : s.frameFields.flatten.length = 2 + (u.cur.toNat - 2) := by
    rw [← hscope.len, ← hend]
    omega
  have hsame : s.frameFields.flatten = u.frameFields.flatten := by
    rw [hbytes, hfc, ← hscope.word, ← State.readBytes_add, ← hlength, hscope.bytes]
  exact (sameFrame_of_bytes hlaw hfc hrouted hsame :)

end Sys2Proof.Machine
end

section
/-! PROOFS. The auxiliary header (43_security_aux.md R210, R211, R214).

The decode takes the fields of R99 one after another and stops at the first that is not in the scope
(`State.reads_decodeAux`); the encode appends the same fields (`encodeAux_eq_putFields`). Both round trips rest on one
fact: the registers after the decode encode to the bytes it consumed, bits 7:6 of the control byte cleared
(`decodeAux_bytes`). Decode first, that is the law. Encode first, the decoded registers encode to the bytes that were
loaded, and these determine the fields that are present (`auxRegisters_of_bytes`). -/

namespace Sys2Proof.Machine

/-! ### The control byte and the fields it gates -/

/-- The flags of the control byte are not among its reserved bits. -/
theorem asrcFlag_dropReservedSc (b : Byte) : (dropReservedSc b).toNat / 32 % 2 = b.toNat / 32 % 2 := by
  rw [dropReservedSc_toNat]
  omega

theorem kseqFlag_dropReservedSc (b : Byte) : (dropReservedSc b).toNat / 8 % 4 = b.toNat / 8 % 4 := by
  rw [dropReservedSc_toNat]
  omega

theorem auxWidths_dropReservedSc (b : Byte) : auxWidths (dropReservedSc b) = auxWidths b := by
  rw [auxWidths, asrcFlag_dropReservedSc, kseqFlag_dropReservedSc, auxWidths]

theorem asrcWidth_sum (b : Byte) : (if b.toNat / 32 % 2 = 1 then [8] else []).sum = 8 * (b.toNat / 32 % 2) := by
  obtain h | h := Nat.mod_two_eq_zero_or_one (b.toNat / 32) <;> simp [h]

/-- The widths of an auxiliary header, taken apart as the pseudocode takes the fields. -/
theorem auxWidths_eq (b : Byte) :
    auxWidths b = [1] ++ ([4] ++ ((if b.toNat / 32 % 2 = 1 then [8] else []) ++
      ((if b.toNat / 8 % 4 = 1 then [1] else []) ++ []))) := by
  rw [auxWidths, List.append_nil, List.append_assoc]
  rfl

theorem auxWidths_sum (b : Byte) :
    (auxWidths b).sum = 5 + 8 * (b.toNat / 32 % 2) + (if b.toNat / 8 % 4 = 1 then [1] else []).sum := by
  rw [auxWidths, List.sum_append, List.sum_append, asrcWidth_sum]
  rfl

theorem auxWidths_fit_iff (limit c : Nat) (b : Byte) :
    firstUnfit limit c (auxWidths b) = none ↔ c + (auxWidths b).sum ≤ limit :=
  firstUnfit_eq_none_iff (by simp [auxWidths])

section
variable {P : Prop} [Decidable P] {n : Nat}

/-- A field whose presence is any condition: absent, it is 0 and takes no byte. -/
theorem State.reads_takeIf_of_iff (s : State) (p : Nat) {present : Bool} (hP : present = true ↔ P) (hn : 0 < n) :
    s.Reads p (if P then [n] else []) ((s.cursorAt p).takeIf present n)
      (.ok (if P then s.wire p n else 0, s.cursorAt (p + (if P then [n] else []).sum))) := by
  rw [State.takeIf]
  by_cases h : P
  · rw [if_pos (hP.mpr h), if_pos h, if_pos h, List.sum_singleton]
    exact s.reads_take p hn
  · rw [if_neg (mt hP.mp h), if_neg h, if_neg h]
    exact .refl s p _

/-- A register that holds such a field, or 0, has the bytes of the field. -/
theorem State.gated_wireBytes (s : State) (a : Nat) {w : Nat} (hw : 2 ^ w = 256 ^ n) :
    (if P then [wireBytes n (if P then BitVec.ofNat w (s.wire a n) else 0).toNat] else []).flatten =
      s.readBytes .ib a (if P then [n] else []).sum := by
  by_cases h : P
  · rw [if_pos h, if_pos h, if_pos h, List.flatten_singleton, s.wireBytes_ofNat_wire a hw, List.sum_singleton]
  · rw [if_neg h, if_neg h]
    rfl

end

/-! ### `DEC.AUX` (R210) -/

/-- What the decode of the auxiliary header at the index `c` writes. -/
def State.withAux (s : State) (c : Nat) : State :=
  { s with
    scr := BitVec.ofNat 8 ((s.readByte .ib c).toNat % 0x40)
    fcnt := BitVec.ofNat 32 (s.wire (c + 1) 4)
    asrc := if (s.readByte .ib c).toNat / 32 % 2 = 1 then BitVec.ofNat 64 (s.wire (c + 5) 8) else 0
    kseq := if (s.readByte .ib c).toNat / 8 % 4 = 1
      then s.readByte .ib (c + 5 + 8 * ((s.readByte .ib c).toNat / 32 % 2)) else 0
    cur := BitVec.ofNat 16 (c + (auxWidths (s.readByte .ib c)).sum) }

theorem State.withAux_scr (s : State) (c : Nat) : (s.withAux c).scr = dropReservedSc (s.readByte .ib c) :=
  (dropReservedSc_eq _).symm

theorem State.withAux_cur_toNat {s : State} {c : Nat} (h : c + (auxWidths (s.readByte .ib c)).sum ≤ s.len.toNat) :
    (s.withAux c).cur.toNat = c + (auxWidths (s.readByte .ib c)).sum :=
  s.cursorAt_cur_toNat (h.trans_lt s.len.isLt)

/-- The write of the fields taken, as the pseudocode makes it. -/
theorem State.setScr_eq_withAux (s : State) (c : Nat) {b : Byte} (hb : b = s.readByte .ib c) :
    ({ s.cursorAt (c + (auxWidths b).sum) with
      fcnt := BitVec.ofNat 32 (s.wire (c + 1) 4)
      asrc := BitVec.ofNat 64 (if b.toNat / 32 % 2 = 1 then s.wire (c + 5) 8 else 0)
      kseq := BitVec.ofNat 8 (if b.toNat / 8 % 4 = 1
        then s.wire (c + 5 + 8 * (b.toNat / 32 % 2)) 1 else 0) }.setScr (dropReservedSc b)) = s.withAux c := by
  subst hb
  simp only [State.withAux, State.setScr, dropReservedSc_idem, ← dropReservedSc_eq, apply_ite (BitVec.ofNat _),
    State.ofNat_wire_one]
  rfl

/-- The decode takes the fields in order, and writes them. -/
theorem State.reads_decodeAux_cursorAt (s : State) (c : Nat) :
    s.Reads c (auxWidths (s.readByte .ib c)) (decodeAux (s.cursorAt c)) (.ok (s.withAux c)) := by
  have hbyte := s.ofNat_wire_one c
  have hasrc := hasAsrc_iff (dropReservedSc (BitVec.ofNat 8 (s.wire c 1)))
  have hkseq := hasKseq_iff (dropReservedSc (BitVec.ofNat 8 (s.wire c 1)))
  rw [asrcFlag_dropReservedSc] at hasrc
  rw [kseqFlag_dropReservedSc] at hkseq
  rw [← s.setScr_eq_withAux c hbyte, ← hbyte, auxWidths_sum, ← Nat.add_assoc, ← Nat.add_assoc, auxWidths_eq]
  refine (s.reads_take c Nat.one_pos).andThen (q := c + 1) rfl ?_
  refine (s.reads_take (c + 1) (by decide)).andThen (q := c + 5) rfl ?_
  refine (s.reads_takeIf_of_iff (c + 5) hasrc (by decide)).andThen (by rw [asrcWidth_sum]) ?_
  rw [asrcWidth_sum]
  refine (s.reads_takeIf_of_iff _ hkseq Nat.one_pos).andThen rfl ?_
  exact .refl s _ _

theorem State.reads_decodeAux (s : State) :
    s.Reads s.cur.toNat (auxWidths (s.readByte .ib s.cur.toNat)) (decodeAux s) (.ok (s.withAux s.cur.toNat)) := by
  have hreads := s.reads_decodeAux_cursorAt s.cur.toNat
  rwa [State.cursorAt_cur] at hreads

/-- All the decode can do where it succeeds. -/
theorem decodeAux_eq_ok {s t : State} (h : decodeAux s = .ok t) :
    s.cur.toNat + (auxWidths (s.readByte .ib s.cur.toNat)).sum ≤ s.len.toNat ∧ t = s.withAux s.cur.toNat := by
  obtain ⟨hfits, hshort⟩ := s.reads_decodeAux
  cases hunfit : firstUnfit s.len.toNat s.cur.toNat (auxWidths (s.readByte .ib s.cur.toNat)) with
  | none =>
    cases (hfits s.cur.isLt hunfit).symm.trans h
    exact ⟨(auxWidths_fit_iff _ _ _).mp hunfit, rfl⟩
  | some p => cases (hshort s.cur.isLt p hunfit).symm.trans h

/-- Settles O50. -/
theorem decAuxReadsEveryField : Obligations.DecAuxReadsEveryField := by
  refine ⟨decAux_runsAs.encoded, fun s hp => ?_⟩
  obtain ⟨hfits, hshort⟩ := s.reads_decodeAux
  exact ⟨fun hfit => decAux_runsAs.next_of_ok hp (hfits s.cur.isLt hfit),
    fun p hunfit => decAux_runsAs.next_of_error hp (hshort s.cur.isLt p hunfit)⟩

/-! ### `ENC.AUX` (R211) -/

theorem encAux_runsAs : RunsAs .encAux 0x71#8 encodeAux := runsAs_opBody rfl nofun nofun

theorem encodeAux_eq_putFields (s : State) : encodeAux s = s.putFields s.auxFields := by
  have hkseq : State.putFields (if s.scr.toNat / 8 % 4 = 1 then [wireBytes 1 s.kseq.toNat] else []) =
      State.putIf (hasKseq s.scr) 1 s.kseq.toNat :=
    funext fun t => (t.putIf_eq_putFields (hasKseq_iff s.scr) 1 s.kseq.toNat).symm
  simp only [State.auxFields, State.putFields_append, State.putFields_wireBytes_cons, State.putFields_nil,
    ← State.putIf_eq_putFields (hasAsrc_iff s.scr), hkseq, bind_assoc]
  rfl

/-- Settles O51. -/
theorem encAuxAppendsThePresentFields : Obligations.EncAuxAppendsThePresentFields :=
  ⟨encAux_runsAs.encoded, fun s hp => encAux_runsAs.encodesFields hp (encodeAux_eq_putFields s)⟩

/-! ### The bytes of decoded registers -/

theorem State.auxFields_widths (s : State) : s.auxFields.map List.length = auxWidths s.scr := by
  simp only [State.auxFields, auxWidths, List.map_append, List.map_cons, List.map_nil, wireBytes_length,
    apply_ite (List.map List.length)]

theorem State.auxFields_length (s : State) : s.auxFields.flatten.length = (auxWidths s.scr).sum := by
  rw [List.length_flatten, State.auxFields_widths]

/-- The encoded fields of the registers after the decode are the bytes it consumed, the reserved bits of the control
byte cleared. -/
theorem State.auxFields_withAux (s : State) (c : Nat) :
    (s.withAux c).auxFields.flatten = dropReservedSc (s.readByte .ib c) ::
      s.readBytes .ib (c + 1) ((auxWidths (s.readByte .ib c)).sum - 1) := by
  have hfcnt := s.wireBytes_ofNat_wire (c + 1) (n := 4) (w := 32) rfl
  have hasrc := s.gated_wireBytes (P := (s.readByte .ib c).toNat / 32 % 2 = 1) (c + 5) (n := 8) (w := 64) rfl
  have hkseq := s.gated_wireBytes (P := (s.readByte .ib c).toNat / 8 % 4 = 1)
    (c + 5 + 8 * ((s.readByte .ib c).toNat / 32 % 2)) (n := 1) (w := 8) rfl
  rw [asrcWidth_sum] at hasrc
  rw [State.ofNat_wire_one] at hkseq
  have hrest : (auxWidths (s.readByte .ib c)).sum - 1 = 4 + (8 * ((s.readByte .ib c).toNat / 32 % 2) +
      (if (s.readByte .ib c).toNat / 8 % 4 = 1 then [1] else []).sum) := by
    rw [auxWidths_sum]
    omega
  rw [hrest, State.readBytes_add, State.readBytes_add, ← hfcnt, ← hasrc, ← hkseq, State.auxFields, State.withAux_scr,
    asrcFlag_dropReservedSc, kseqFlag_dropReservedSc, wireBytes_one, List.flatten_append, List.flatten_append,
    List.append_assoc]
  rfl

/-! ### Round trips (R214) -/

/-- The bytes of an auxiliary header determine the fields that its control byte says are present. -/
theorem auxRegisters_of_bytes {s t : State} (hscr : t.scr = s.scr) (h : t.auxFields.flatten = s.auxFields.flatten) :
    t.fcnt = s.fcnt ∧ (s.scr.toNat / 32 % 2 = 1 → t.asrc = s.asrc) ∧ (s.scr.toNat / 8 % 4 = 1 → t.kseq = s.kseq) := by
  have hfields : t.auxFields = s.auxFields := by
    refine List.eq_iff_flatten_eq.mpr ⟨h, ?_⟩
    rw [State.auxFields_widths, State.auxFields_widths, hscr]
  rw [State.auxFields, State.auxFields, hscr] at hfields
  obtain ⟨hfields, hkseq⟩ := append_flagged_inj hfields rfl
  obtain ⟨hfixed, hasrc⟩ := append_flagged_inj hfields rfl
  simp only [List.cons.injEq, and_true, true_and] at hfixed hasrc hkseq
  exact ⟨wireBytes_inj rfl hfixed, fun hP => wireBytes_inj rfl (hasrc hP), fun hP => wireBytes_inj rfl (hkseq hP)⟩

section
variable {s t w : State}

/-- A scope that is an encoded auxiliary header starts with its control byte. -/
theorem State.ScopeIs.controlByte (h : w.ScopeIs s.auxFields.flatten) : w.readByte .ib 0 = s.scr := by
  obtain ⟨rest, hrest⟩ : ∃ rest, s.auxFields.flatten = [s.scr] ++ rest :=
    ⟨_, congrArg (· ++ _) (wireBytes_one s.scr)⟩
  rw [hrest] at h
  simpa [State.readBytes] using h.front

/-- An encoded auxiliary header decodes to the registers it was encoded from. -/
theorem decodeAux_of_scopeIs (h : w.ScopeIs s.auxFields.flatten) (hclear : s.scr.toNat < 0x40) :
    decodeAux w = .ok (w.withAux 0) ∧ (w.withAux 0).scr = s.scr ∧
      (w.withAux 0).auxFields.flatten = s.auxFields.flatten := by
  have hbyte := h.controlByte
  have hlen := h.len
  have hbytes := h.bytes
  have hpos : s.auxFields.flatten.length = 1 + ((auxWidths s.scr).sum - 1) := by
    rw [State.auxFields_length, auxWidths_sum]
    omega
  have hreads := w.reads_decodeAux
  rw [h.cur, hbyte] at hreads
  refine ⟨hreads.fits (by decide) ((auxWidths_fit_iff _ _ _).mpr ?_), ?_, ?_⟩
  · rw [hlen, State.auxFields_length, Nat.zero_add]
  · rw [State.withAux_scr, hbyte, dropReservedSc_of_lt hclear]
  · rw [hpos, State.readBytes_add] at hbytes
    rw [State.auxFields_withAux, hbyte, dropReservedSc_of_lt hclear, ← hbytes]
    simp [State.readBytes, hbyte]

/-- Encode first: the header appended to an empty output comes back, absent fields as 0. -/
theorem encAux_then_decAux (hclear : s.scr.toNat < 0x40) (hp : s.phase ≠ .failed) (hempty : s.olen = 0)
    (hob : s.auxFields.flatten.length ≤ s.cfg.obCap) (hib : s.auxFields.flatten.length ≤ s.cfg.ibCap) :
    ∃ t u, exec .encAux s = .next t ∧ exec .decAux (hostAct (.load t.output) t) = .next u ∧ u.phase = .done ∧
      u.scr = s.scr ∧ u.fcnt = s.fcnt ∧ u.asrc = (if s.scr.toNat / 32 % 2 = 1 then s.asrc else 0) ∧
      u.kseq = (if s.scr.toNat / 8 % 4 = 1 then s.kseq else 0) := by
  have hbody : encodeAux s = s.putSeq s.auxFields.flatten := by
    have hfit : s.olen.toNat + s.auxFields.flatten.length ≤ s.cfg.obCap := by simpa [hempty] using hob
    rw [encodeAux_eq_putFields, State.putFields_of_le hfit, State.putSeq_eq_appended hfit]
  obtain ⟨t, ht, hdone, -, hscope⟩ := encAux_runsAs.loopback hbody hp hempty hob hib
  obtain ⟨hdecode, hscr, hbytes⟩ := decodeAux_of_scopeIs hscope hclear
  obtain ⟨hfcnt, hasrc, hkseq⟩ := auxRegisters_of_bytes hscr hbytes
  have hbyte := hscope.controlByte
  refine ⟨t, _, ht, decAux_runsAs.next_of_ok (by simp [hdone]) hdecode, rfl, hscr, hfcnt, ?_, ?_⟩
  · split
    next hP => exact hasrc hP
    next hP => exact if_neg (hbyte ▸ hP)
  · split
    next hP => exact hkseq hP
    next hP => exact if_neg (hbyte ▸ hP)

/-- Fields encoded into an empty output are all it holds. -/
theorem EncodesFields.into_empty {i : Instr} {fields : List (List Byte)} (h : EncodesFields i fields s)
    (hempty : s.olen = 0) (hob : fields.flatten.length ≤ s.cfg.obCap) :
    ∃ u, exec i s = .next u ∧ u.phase = .done ∧ u.olen.toNat = fields.flatten.length ∧
      ∀ a, ∀ ha : a < fields.flatten.length, u.readByte .ob a = fields.flatten[a] := by
  have hzero : s.olen.toNat = 0 := congrArg BitVec.toNat hempty
  obtain ⟨u, hu, happended⟩ := h.1 (by omega)
  obtain ⟨holen, -⟩ := happended.output hempty hob
  obtain ⟨hstate, hbytes, -⟩ := happended
  refine ⟨u, hu, by rw [hstate], holen, fun a ha => ?_⟩
  rw [← hbytes a ha, hzero, Nat.zero_add]

/-- Decode first: the bytes consumed come back, bits 7:6 of the first cleared. -/
theorem decAux_then_encAux (hp : s.phase ≠ .failed) (hempty : s.olen = 0) (hexec : exec .decAux s = .next t)
    (hdone : t.phase = .done) (hob : t.cur.toNat - s.cur.toNat ≤ s.cfg.obCap) :
    ∃ u, exec .encAux t = .next u ∧ u.phase = .done ∧ s.cur.toNat + u.olen.toNat = t.cur.toNat ∧
      ∀ a, a < u.olen.toNat → u.readByte .ob a =
        if a = 0 then BitVec.ofNat 8 ((s.readByte .ib s.cur.toNat).toNat % 0x40)
        else s.readByte .ib (s.cur.toNat + a) := by
  obtain ⟨v, hv, rfl⟩ := decAux_runsAs.ok_of_done hp hexec hdone
  obtain ⟨hfit, rfl⟩ := decodeAux_eq_ok hv
  have hcur : ((s.withAux s.cur.toNat).doneWith 0x61#8).cur.toNat = _ := State.withAux_cur_toNat hfit
  have hlength : (s.withAux s.cur.toNat).auxFields.flatten.length =
      (auxWidths (s.readByte .ib s.cur.toNat)).sum := by
    rw [State.auxFields_length, State.withAux_scr, auxWidths_dropReservedSc]
  have hroom : (s.withAux s.cur.toNat).auxFields.flatten.length ≤ s.cfg.obCap := by omega
  obtain ⟨u, hu, hudone, holen, hbytes⟩ :=
    (encAuxAppendsThePresentFields.2 ((s.withAux s.cur.toNat).doneWith 0x61#8) nofun).into_empty hempty hroom
  refine ⟨u, hu, hudone, by rw [hcur, holen.trans hlength], fun a ha => ?_⟩
  refine (hbytes a (holen ▸ ha)).trans ((List.getElem_of_eq (s.auxFields_withAux s.cur.toNat) _).trans ?_)
  cases a with
  | zero => exact dropReservedSc_eq _
  | succ a =>
    rw [List.getElem_cons_succ, State.readBytes_getElem, if_neg (Nat.succ_ne_zero a), Nat.add_assoc, Nat.add_comm 1]

end

/-- Settles O53, direction by direction. -/
theorem auxRoundTrip : Obligations.AuxRoundTrip :=
  ⟨fun _ => encAux_then_decAux, fun _ _ => decAux_then_encAux⟩

end Sys2Proof.Machine
end

section
/-! PROOFS. The control operations and the host's actions (44_control_and_host.md R220 to R228).

An action that writes no code to `OP` is one step with the effect `hostAct` gives it (`step_hostAct`), so each statement
about such a step is a fact about one update of the state: an accepted `LOAD` or `SETBUF` stores its bytes from index 0
(`stored_of_setSeq`), a single-byte write changes one cell of one space (`State.readByte_hostSetByte`), and `SET` and
`GET` agree with the two tables of registers, `State.written` and `State.registerValues`, entry by entry. -/

namespace Sys2Proof.Machine

section
variable {s t : State} {a : HostAction} {rest : List HostAction} {reg : Byte} {v : Word64} {b : List Byte}

/-! ### Control operations (R220, R221) -/

/-- In `Failed` an operation other than `CLR` is ignored (60_exceptions.md R239). -/
theorem exec_of_failed {i : Instr} (hp : s.phase = .failed) (hclr : i ≠ .clr) : exec i s = .next s := by
  by_cases hnop : i = .nop
  · rw [hnop]
    rfl
  · rw [exec_eq_runOp i s hnop hclr, runOp_of_failed hp]

/-- Settles O9. -/
theorem clrReturnsToIdleAndNopChangesNothing : Obligations.ClrReturnsToIdleAndNopChangesNothing :=
  ⟨⟨rfl, rfl⟩, ⟨rfl, rfl⟩, fun _ => ⟨rfl, fun hp _ hclr => exec_of_failed hp hclr, rfl⟩⟩

/-! ### A step on a host action -/

/-- An action that writes no code to `OP` is taken off the list and has its own effect (R223 to R228). -/
theorem step_hostAct (hpending : s.pending = a :: rest) (ha : operationRequest a = none) :
    step s = .next (hostAct a (s.withPending rest)) := by
  rw [step, hpending]
  simp only [ha]

/-- `SET` of a register other than `OP` (R227). -/
theorem step_set (hpending : s.pending = .set reg v :: rest) (hreg : reg.toNat ≠ 0) :
    step s = .next ((s.withPending rest).writeReg reg v) :=
  step_hostAct hpending (if_neg fun h => hreg (congrArg BitVec.toNat h))

/-- `SET` of a register is the action that has the same effect. -/
theorem step_set_eq_step (hpending : s.pending = .set reg v :: rest) (hreg : reg.toNat ≠ 0)
    (ha : operationRequest a = none) (heffect : (s.withPending rest).writeReg reg v = hostAct a (s.withPending rest)) :
    step s = step { s with pending := a :: rest } := by
  rw [step_set hpending hreg, heffect, step_hostAct (s := { s with pending := a :: rest }) rfl ha]
  rfl

/-- Settles O59. -/
theorem resetActionRestoresTheResetState : Obligations.ResetActionRestoresTheResetState :=
  fun _ _ hpending => step_hostAct hpending rfl

/-! ### Byte sequences (R224, R227) -/

theorem hostAct_load_of_lt (h : s.cfg.ibCap < b.length) : hostAct (.load b) s = s := if_neg (by omega)

theorem hostAct_setBuf_pl (h : b.length ≤ s.cfg.payloadCap) : hostAct (.setBuf .pl b) s = s.setPayload b := if_pos h

theorem hostAct_setBuf_rl (h : b.length ≤ s.cfg.relayCap) : hostAct (.setBuf .rl b) s = s.setRelay b := if_pos h

theorem hostAct_setBuf_pl_of_lt (h : s.cfg.payloadCap < b.length) : hostAct (.setBuf .pl b) s = s := if_neg (by omega)

theorem hostAct_setBuf_rl_of_lt (h : s.cfg.relayCap < b.length) : hostAct (.setBuf .rl b) s = s := if_neg (by omega)

/-- Settles O54. -/
theorem loadPlacesTheBytes : Obligations.LoadPlacesTheBytes := by
  intro s b rest hpending
  have hstep := step_hostAct hpending rfl
  refine ⟨fun hfit => ⟨_, hstep.trans (congrArg _ (hostAct_load hfit)), rfl, stored_of_setSeq rfl rfl⟩, fun hlong => ?_⟩
  exact hstep.trans (congrArg _ (hostAct_load_of_lt hlong))

/-! ### `LEN`, `CUR` and `OLEN` (R225, R226) -/

/-- Settles O55: each of the three actions is its own condition, and `SET` of its register has the same effect on the
value's low 16 bits. -/
theorem cursorWritesAreChecked : Obligations.CursorWritesAreChecked := by
  refine ⟨fun s n rest => ⟨fun h => step_hostAct h rfl, fun h => step_hostAct h rfl, fun h => step_hostAct h rfl⟩,
    fun s v rest => ?_⟩
  rw [BitVec.ofNat_toNat]
  exact ⟨fun h => step_set_eq_step h (by decide) rfl rfl, fun h => step_set_eq_step h (by decide) rfl rfl,
    fun h => step_set_eq_step h (by decide) rfl rfl⟩

/-! ### Single bytes (R51, R224) -/

section
variable {sp : Space} {i : Nat} {w : Byte}

theorem State.hostSetByte_of_refused (h : sp = .ob ∨ s.cfg.cap sp ≤ i) : s.hostSetByte sp i w = s := by
  unfold State.hostSetByte
  split
  next hi =>
    obtain rfl | hcap := h
    · rfl
    · omega
  next => rfl

/-- Whether or not it is accepted, a single-byte write changes no register and not the output buffer. -/
theorem State.hostSetByte_eq (s : State) (sp : Space) (i : Nat) (v : Byte) :
    s.hostSetByte sp i v = { s with
      ib := (s.hostSetByte sp i v).ib, pl := (s.hostSetByte sp i v).pl, rl := (s.hostSetByte sp i v).rl } := by
  unfold State.hostSetByte
  split
  · cases sp <;> rfl
  · rfl

/-- An accepted single-byte write sets one cell of its own space. -/
theorem State.mem_hostSetByte (hsp : sp ≠ .ob) (hi : i < s.cfg.cap sp) (sp' : Space) :
    (s.hostSetByte sp i w).mem sp' = if sp' = sp then Memory.set (s.mem sp) i w else s.mem sp' := by
  unfold State.hostSetByte
  rw [if_pos hi]
  cases sp with
  | ob => exact absurd rfl hsp
  | ib | pl | rl => cases sp' <;> rfl

theorem State.readByte_hostSetByte (hsp : sp ≠ .ob) (hi : i < s.cfg.cap sp) (sp' : Space) (x : Nat) :
    (s.hostSetByte sp i w).readByte sp' x = if (sp', x) = (sp, i) then w else s.readByte sp' x := by
  have hepoch : (s.hostSetByte sp i w).epoch = s.epoch := by rw [State.hostSetByte_eq]
  by_cases hspace : sp' = sp
  · subst hspace
    rw [State.readByte_def, State.readByte_def, State.mem_hostSetByte hsp hi, if_pos rfl, Memory.get?_set, hepoch]
    by_cases hx : x = i <;> simp [hx]
  · rw [State.readByte_congr hepoch (by rw [State.mem_hostSetByte hsp hi, if_neg hspace])]
    simp [hspace]

end

/-- Settles O56. -/
theorem setBufPlacesTheBytes : Obligations.SetBufPlacesTheBytes := by
  refine ⟨fun s b rest => ⟨?_, ?_, ?_, ?_⟩, fun s sp i v rest hpending => ⟨fun hsp hi => ?_, fun hrefused => ?_⟩⟩
  · exact fun hpending hfit =>
      ⟨_, (step_hostAct hpending rfl).trans (congrArg _ (hostAct_setBuf_pl hfit)), rfl, stored_of_setSeq rfl rfl⟩
  · exact fun hpending hfit =>
      ⟨_, (step_hostAct hpending rfl).trans (congrArg _ (hostAct_setBuf_rl hfit)), rfl, stored_of_setSeq rfl rfl⟩
  · exact fun hpending hlong => (step_hostAct hpending rfl).trans (congrArg _ (hostAct_setBuf_pl_of_lt hlong))
  · exact fun hpending hlong => (step_hostAct hpending rfl).trans (congrArg _ (hostAct_setBuf_rl_of_lt hlong))
  · have hread := State.readByte_hostSetByte (s := s.withPending rest) (w := v) hsp hi
    exact ⟨_, step_hostAct hpending rfl, State.hostSetByte_eq _ sp i v, by rw [hostAct, hread, if_pos rfl],
      fun sp' x hne => by rw [hostAct, hread, if_neg hne]; rfl⟩
  · exact (step_hostAct hpending rfl).trans (congrArg _ (State.hostSetByte_of_refused hrefused))

/-! ### Writes by register number (R227) -/

/-- A read-only register and a number with no register ignore a write (10_state.md R20). -/
theorem State.writeReg_of_ignored
    (h : reg.toNat ∈ [0x01, 0x02, 0x06, 0x07, 0x0C, 0x0D, 0x0E, 0x0F, 0x1D, 0x1E, 0x1F] ∨ 0x24 ≤ reg.toNat) :
    s.writeReg reg v = s := by
  unfold State.writeReg
  split
  case h_25 => rfl
  all_goals
    next hreg =>
    rw [hreg] at h
    exact absurd h (by decide)

/-! ### The output buffer (R51) -/

@[simp] theorem State.hostSetLen_ob (s : State) (n : Word16) : (s.hostSetLen n).ob = s.ob := by
  unfold State.hostSetLen
  split <;> rfl

@[simp] theorem State.hostSeek_ob (s : State) (n : Word16) : (s.hostSeek n).ob = s.ob := by
  unfold State.hostSeek
  split <;> rfl

@[simp] theorem State.hostSetRlen_ob (s : State) (n : Word16) : (s.hostSetRlen n).ob = s.ob := by
  unfold State.hostSetRlen
  split <;> rfl

@[simp] theorem State.hostSetPlen_ob (s : State) (n : Word16) : (s.hostSetPlen n).ob = s.ob := by
  unfold State.hostSetPlen
  split <;> rfl

@[simp] theorem State.hostLoad_ob (s : State) (b : List Byte) : (s.hostLoad b).ob = s.ob := by
  unfold State.hostLoad
  split <;> rfl

@[simp] theorem State.writeReg_ob (s : State) (reg : Byte) (v : Word64) : (s.writeReg reg v).ob = s.ob := by
  unfold State.writeReg
  split <;> simp

@[simp] theorem State.hostSetBuf_ob (s : State) (buf : ValueBuf) (b : List Byte) : (s.hostSetBuf buf b).ob = s.ob := by
  unfold State.hostSetBuf
  cases buf with
  | pl => dsimp only; split <;> rfl
  | rl => dsimp only; split <;> rfl

/-- `RESET` empties the output buffer, and no other host action writes it. -/
theorem hostAct_ob (ha : a ≠ .reset) : (hostAct a s).ob = s.ob := by
  cases a with
  | reset => exact absurd rfl ha
  | load b => exact s.hostLoad_ob b
  | setLen n => exact s.hostSetLen_ob n
  | seek n => exact s.hostSeek_ob n
  | oclr => exact s.hostClearOutput_ob
  | set reg v => exact s.writeReg_ob reg v
  | setBuf buf b => exact s.hostSetBuf_ob buf b
  | setByte sp i v => rw [hostAct, State.hostSetByte_eq]
  | op | get | getByte => rfl

/-- Settles O58. -/
theorem refusedWritesHaveNoEffect : Obligations.RefusedWritesHaveNoEffect :=
  ⟨fun _ _ _ h => State.writeReg_of_ignored h, fun _ _ h => if_neg (Nat.not_le.mpr h),
    fun _ _ h => if_neg (Nat.not_le.mpr h), fun _ _ ha => hostAct_ob ha⟩

/-! ### The tables of registers (R227, R228) -/

theorem dropReservedFc_setWidth (v : Word64) :
    dropReservedFc (v.setWidth 16) = BitVec.ofNat 16 (v.toNat % 0x4000) := by
  rw [← BitVec.ofNat_toNat, dropReservedFc_ofNat]

theorem dropReservedSc_setWidth (v : Word64) : dropReservedSc (v.setWidth 8) = BitVec.ofNat 8 (v.toNat % 0x40) := by
  rw [← BitVec.ofNat_toNat, dropReservedSc_ofNat]

/-- The unchecked registers are written as their table says: truncated, without the reserved bits, and no other. -/
theorem State.writeReg_of_mem_written (h : (reg.toNat, t) ∈ s.written v.toNat) : s.writeReg reg v = t := by
  simp only [State.written, List.mem_cons, Prod.mk.injEq, List.not_mem_nil, or_false] at h
  casesm* _ ∨ _
  all_goals
    obtain ⟨hreg, rfl⟩ := h
    simp [State.writeReg, hreg, State.setFc, State.setScr, dropReservedFc_setWidth, dropReservedSc_setWidth]

theorem ne_zero_of_mem_written {n k : Nat} (h : (n, t) ∈ s.written k) : n ≠ 0 := by
  rintro rfl
  simp [State.written] at h

theorem State.status_toNat (s : State) : s.status.toNat = s.phase.code + 4 * s.err.code + 256 * s.lop.toNat := by
  have hphase : s.phase.code ≤ 2 := by cases s.phase <;> decide
  have herr : s.err.code ≤ 5 := by cases s.err <;> decide
  have hlop := s.lop.isLt
  rw [State.status, BitVec.toNat_ofNat]
  omega

theorem State.readReg_of_mem {x : Nat} (h : (reg.toNat, x) ∈ s.registerValues) : s.readReg reg = BitVec.ofNat 64 x := by
  simp only [State.registerValues, List.mem_cons, Prod.mk.injEq, List.not_mem_nil, or_false] at h
  rw [← State.status_toNat] at h
  casesm* _ ∨ _
  all_goals
    obtain ⟨hreg, rfl⟩ := h
    simp [State.readReg, hreg]

theorem State.readReg_of_not_mem (h : ∀ x, (reg.toNat, x) ∉ s.registerValues) : s.readReg reg = 0 := by
  unfold State.readReg
  split
  case h_28 => rfl
  all_goals
    next hreg =>
    rw [hreg] at h
    simp [State.registerValues] at h

/-- `FC` reads back without its reserved bits 15:14 (10_state.md R31). -/
theorem State.readReg_writeReg_fc (s : State) (v : Word64) :
    (s.writeReg 0x10#8 v).readReg 0x10#8 = BitVec.ofNat 64 (v.toNat % 0x4000) := by
  change (dropReservedFc (v.setWidth 16)).setWidth 64 = _
  rw [← BitVec.ofNat_toNat, dropReservedFc_toNat, BitVec.toNat_setWidth, Nat.mod_mod_of_dvd _ (by decide)]

/-- `SCR` reads back without its reserved bits 7:6 (10_state.md R40). -/
theorem State.readReg_writeReg_scr (s : State) (v : Word64) :
    (s.writeReg 0x20#8 v).readReg 0x20#8 = BitVec.ofNat 64 (v.toNat % 0x40) := by
  change (dropReservedSc (v.setWidth 8)).setWidth 64 = _
  rw [← BitVec.ofNat_toNat, dropReservedSc_toNat, BitVec.toNat_setWidth, Nat.mod_mod_of_dvd _ (by decide)]

/-- Settles O57. -/
theorem reservedBitsOfWritesAreDropped : Obligations.ReservedBitsOfWritesAreDropped := by
  refine ⟨fun s v => ⟨s.readReg_writeReg_fc v, s.readReg_writeReg_scr v⟩, fun s t reg v rest hpending hmem => ?_,
    fun s v rest => ?_, fun s reg => ⟨?_, ?_⟩, fun s sp i => ?_, ?_, rfl, rfl, rfl⟩
  · rw [step_set hpending (ne_zero_of_mem_written hmem)]
    exact congrArg _ (State.writeReg_of_mem_written hmem)
  · rw [show v.toNat % 65536 = (v.setWidth 16).toNat from (BitVec.toNat_setWidth 16 v).symm, BitVec.ofNat_toNat]
    exact ⟨fun h => step_set h (by decide), fun h => step_set h (by decide)⟩
  · exact fun x hx => congrArg some (State.readReg_of_mem hx)
  · exact fun h => congrArg some (State.readReg_of_not_mem h)
  · rw [hostReply, BitVec.ofNat_toNat]
  · rintro s a rest (⟨reg, rfl⟩ | ⟨sp, i, rfl⟩) hpending
    · exact step_hostAct hpending rfl
    · exact step_hostAct hpending rfl

end

end Sys2Proof.Machine
end

section
/-! PROOFS. Exceptions (60_exceptions.md R230 to R242). A code written to `OP` is either one that R84 lists, which the
decoder refuses, or the code of a row, which runs (`step_rejectCode`, `step_exec`); in `Failed` neither has an effect,
unless the row is `CLR`. Failure entry is the one case of `exec_cases` that leads to `Failed`, and it records what the
pseudocode raised (`opBody_raises`), which is never the unused code 3. -/

namespace Sys2Proof.Machine

section
variable {s t : State} {a : HostAction} {rest : List HostAction} {c : Byte} {i : Instr}

/-! ### A step on a write to `OP` (R21, R222) -/

theorem fetchOperation_eq (c : Byte) : fetchOperation c = decodeOp c := by
  rw [fetchOperation, decode_op8]
  cases decodeOp c <;> rfl

/-- A code of a row runs the row, with the action taken off the list. -/
theorem step_exec (hpending : s.pending = a :: rest) (ha : operationRequest a = some c) (hc : decodeOp c = .ok i) :
    step s = exec i (s.withPending rest) := by
  rw [step, hpending]
  simp only [ha, fetchOperation_eq, hc]

/-- A code that the decoder refuses is rejected, with the action taken off the list. -/
theorem step_rejectCode {e : DecodeError} (hpending : s.pending = a :: rest) (ha : operationRequest a = some c)
    (hc : decodeOp c = .error e) : step s = .next ((s.withPending rest).rejectCode c) := by
  rw [step, hpending]
  simp only [ha, fetchOperation_eq, hc]

theorem State.rejectCode_of_failed (hp : s.phase = .failed) (c : Byte) : s.rejectCode c = s := if_pos hp

theorem State.rejectCode_of_not_failed (hp : s.phase ≠ .failed) (c : Byte) :
    s.rejectCode c = s.raised .illegalOp 0 c := if_neg hp

/-- Settles O7. -/
theorem illegalCodeRaisesIllegalOp : Obligations.IllegalCodeRaisesIllegalOp := by
  intro s a c rest hpending hwrite hillegal hp
  obtain ⟨-, hc⟩ | ⟨hlegal, -⟩ := decodeOp_cases c
  · have hp' : (s.withPending rest).phase ≠ .failed := hp
    rw [step_rejectCode hpending (operationRequest_of_write hwrite) hc, State.rejectCode_of_not_failed hp']
    rfl
  · exact absurd hillegal hlegal

/-! ### `Failed` is terminal (R239) -/

/-- In `Failed` a write to `OP` of any code but `CLR`'s is only taken off the list. -/
theorem step_of_failed (hp : s.phase = .failed) (hpending : s.pending = a :: rest)
    (ha : operationRequest a = some c) (hclr : c ≠ 0x01#8) : step s = .next (s.withPending rest) := by
  have hp' : (s.withPending rest).phase = .failed := hp
  obtain ⟨-, hc⟩ | ⟨-, i, hc, -, hcode⟩ := decodeOp_cases c
  · rw [step_rejectCode hpending ha hc, State.rejectCode_of_failed hp']
  · have hi : i ≠ .clr := by
      rintro rfl
      exact hclr hcode.symm
    rw [step_exec hpending ha hc, exec_of_failed hp' hi]

/-- `OP c` and `SET` of register 0 are the only actions that write a code to `OP` (R227). -/
theorem operationRequest_eq_none (hop : ∀ c, a ≠ .op c) (hset : ∀ v, a ≠ .set 0x00#8 v) :
    operationRequest a = none := by
  cases a with
  | op c => exact absurd rfl (hop c)
  | set reg v =>
    refine if_neg fun hreg => hset v ?_
    rw [hreg]
    rfl
  | _ => rfl

/-- Settles O8, by what an action asks for. -/
theorem failedIgnoresEveryCodeButClr : Obligations.FailedIgnoresEveryCodeButClr := by
  intro s rest hp
  refine ⟨fun i hi => exec_of_failed hp hi, fun a c hclr hwrite hpending => ?_, fun a hop hset hpending => ?_⟩
  · exact step_of_failed hp hpending (operationRequest_of_write hwrite) hclr
  · exact step_hostAct hpending (operationRequest_eq_none hop hset)

/-! ### Failures are precise (R236) -/

/-- The failure's position is what `EPOS` holds of it, its low 16 bits. -/
theorem State.raised_epos_toNat (s : State) (e : ErrCode) (p : Nat) (code : Byte) :
    s.raised e (s.raised e p code).epos.toNat code = s.raised e p code := by
  rw [State.raised, State.raised, BitVec.ofNat_toNat, BitVec.setWidth_eq]

/-- Settles O11: of all an instruction can do, only failure entry leads to `Failed`. -/
theorem failureDiscardsEveryWrite : Obligations.FailureDiscardsEveryWrite := by
  intro i s t h hp ht
  obtain ⟨-, rfl⟩ | ⟨-, rfl⟩ | ⟨-, rfl⟩ | ⟨-, u, -, rfl⟩ | ⟨-, f, hf, rfl⟩ := exec_cases h
  · exact absurd ht hp
  · cases ht
  · exact absurd ht hp
  · cases ht
  · exact ⟨(s.raised_epos_toNat f.err f.pos i.opCode).symm, opBody_raises i s f hf⟩

/-! ### Nothing stops the machine (R242) -/

theorem exec_next (i : Instr) (s : State) : ∃ t, exec i s = .next t := by
  by_cases hnop : i = .nop
  · exact ⟨s, by rw [hnop]; rfl⟩
  by_cases hclr : i = .clr
  · exact ⟨s.clearFailure, by rw [hclr]; rfl⟩
  rw [exec_eq_runOp i s hnop hclr]
  exact runOp_next _ _ s

theorem step_next (s : State) : ∃ t, step s = .next t := by
  cases hpending : s.pending with
  | nil => exact ⟨s, by rw [step, hpending]⟩
  | cons a rest =>
    cases ha : operationRequest a with
    | none => exact ⟨_, step_hostAct hpending ha⟩
    | some c =>
      cases hc : decodeOp c with
      | error e => exact ⟨_, step_rejectCode hpending ha hc⟩
      | ok i =>
        rw [step_exec hpending ha hc]
        exact exec_next i _

/-- Settles O12. -/
theorem everyStepAnswersNext : Obligations.EveryStepAnswersNext := fun s =>
  ⟨step_next s, fun i => exec_next i s, s.clearFailure, rfl, rfl⟩

/-! ### The unused code 3 (R233) -/

/-- A checked write keeps a part of the state that an accepted one keeps. -/
theorem ite_keeps {α : Type} (part : State → α) {p : Prop} [Decidable p] (h : part t = part s) :
    part (if p then t else s) = part s := by
  split
  · exact h
  · rfl

@[simp] theorem State.hostSetLen_err (s : State) (n : Word16) : (s.hostSetLen n).err = s.err :=
  ite_keeps State.err rfl

@[simp] theorem State.hostSeek_err (s : State) (n : Word16) : (s.hostSeek n).err = s.err := ite_keeps State.err rfl

@[simp] theorem State.hostSetRlen_err (s : State) (n : Word16) : (s.hostSetRlen n).err = s.err :=
  ite_keeps State.err rfl

@[simp] theorem State.hostSetPlen_err (s : State) (n : Word16) : (s.hostSetPlen n).err = s.err :=
  ite_keeps State.err rfl

@[simp] theorem State.hostLoad_err (s : State) (b : List Byte) : (s.hostLoad b).err = s.err := ite_keeps State.err rfl

@[simp] theorem State.hostSetBuf_err (s : State) (buf : ValueBuf) (b : List Byte) :
    (s.hostSetBuf buf b).err = s.err := by
  cases buf with
  | pl => exact ite_keeps State.err (s.setPayload_err b)
  | rl => exact ite_keeps State.err (s.setRelay_err b)

/-- `STATUS` is read-only (10_state.md R20). -/
@[simp] theorem State.writeReg_err (s : State) (reg : Byte) (v : Word64) : (s.writeReg reg v).err = s.err := by
  unfold State.writeReg
  split <;> simp

/-- `RESET` clears `ERR`, and no other host action writes it. -/
theorem hostAct_err (ha : a ≠ .reset) : (hostAct a s).err = s.err := by
  cases a with
  | reset => exact absurd rfl ha
  | load b => exact s.hostLoad_err b
  | setLen n => exact s.hostSetLen_err n
  | seek n => exact s.hostSeek_err n
  | oclr => exact s.hostClearOutput_err
  | set reg v => exact s.writeReg_err reg v
  | setBuf buf b => exact s.hostSetBuf_err buf b
  | setByte sp i v => rw [hostAct, State.hostSetByte_eq]
  | op | get | getByte => rfl

theorem hostAct_not_malformedTag (h : s.err ≠ .malformedTag) (a : HostAction) :
    (hostAct a s).err ≠ .malformedTag := by
  by_cases ha : a = .reset
  · rw [ha]
    exact nofun
  · rwa [hostAct_err ha]

theorem Failure.Raisable.not_malformedTag {f : Failure} (h : f.Raisable) : f.err ≠ .malformedTag := by
  obtain he | he | he := h
  all_goals rw [he]; exact nofun

theorem exec_not_malformedTag (hs : s.err ≠ .malformedTag) (h : exec i s = .next t) : t.err ≠ .malformedTag := by
  obtain ⟨-, rfl⟩ | ⟨-, rfl⟩ | ⟨-, rfl⟩ | ⟨-, u, hu, rfl⟩ | ⟨-, f, hf, rfl⟩ := exec_cases h
  · exact hs
  · exact nofun
  · exact hs
  · have herr : u.err = s.err := congrArg Unwritten.err (opBody_unwritten hu)
    exact herr.trans_ne hs
  · exact (opBody_raises i s f hf).not_malformedTag

theorem State.rejectCode_not_malformedTag (h : s.err ≠ .malformedTag) (c : Byte) :
    (s.rejectCode c).err ≠ .malformedTag := by
  unfold State.rejectCode
  split
  · exact h
  · exact nofun

/-- Settles O17, by the cases of a step: none of them leads to the code 3 from another one. -/
theorem malformedTagIsNeverRaised : Obligations.MalformedTagIsNeverRaised := by
  intro s t h ht
  by_contra hs
  obtain ⟨-, rfl⟩ | ⟨a, rest, -, ⟨-, rfl⟩ | ⟨c, -, ⟨i, -, hi⟩ | ⟨e, -, rfl⟩⟩⟩ := step_cases h
  · exact hs ht
  · exact hostAct_not_malformedTag (s := s.withPending rest) hs a ht
  · exact exec_not_malformedTag (s := s.withPending rest) hs hi ht
  · exact State.rejectCode_not_malformedTag (s := s.withPending rest) hs c ht

end

end Sys2Proof.Machine
end
